-- ==== Sys2Proof/Word.lean ====
section
/-! DEFINITION. The word types of the machine: 32-bit registers (R10, R40), 16-bit T32 halfwords (R83, R85), bytes of
memory. -/

namespace Sys2Proof

/-- A 32-bit value: HSCTLR, `R[t]`, an address, an A32 instruction word. -/
abbrev Word := BitVec 32

/-- A T32 halfword (`hw1`, `hw2` of R83). -/
abbrev Half := BitVec 16

/-- A byte of memory. -/
abbrev Byte := BitVec 8

end Sys2Proof
end

