-- ==== Sys2Proof/Config.lean ====
section
/-! DEFINITION. The implementation parameters of R3, the named configurations of the spec, and the free values that no
definition gives a value to. A machine carries its configuration in State (log 1). -/

namespace Sys2Proof

/-- "The highest implemented Exception level" (R3, D15). -/
inductive HighestEL where
  | el1 | el2 | el3
deriving DecidableEq, Repr, Inhabited

/-- What a reserved bit of HSCTLR does (R32, R33, D1). -/
inductive ResPolicy where
  | hardwired | stored
deriving DecidableEq, Repr, Inhabited

/-- `IT_width_policy` (R3, R105): whether the IT of an UNDEFINED pair is a 16-bit instruction or the first half of a
32-bit one. -/
inductive ItWidth where
  | it16 | it32half
deriving DecidableEq, Repr, Inhabited

/-- Exception levels EL0 to EL3 (R130). -/
inductive EL where
  | el0 | el1 | el2 | el3
deriving DecidableEq, Repr, Inhabited

/-- The instruction set state (R39, R124). -/
inductive ISet where
  | a32 | t32
deriving DecidableEq, Repr, Inhabited

/-- The parameters of R3 that are constants of an implementation. -/
structure Config where
  featAA32EL2 : Bool
  featAA64EL2 : Bool
  haveEL2 : Bool
  highestEL : HighestEL
  featSSBS : Bool
  featMixedEnd : Bool
  featBigEnd : Bool
  mixedEndEL2 : Bool
  itdImplemented : Bool
  cp15benImplemented : Bool
  featLSMAOC : Bool
  resetDSSBS : Bool
  resetTE : Bool
  resetEE : Bool
  resPolicy : ResPolicy
deriving DecidableEq, Repr, Inhabited

/-- The constraints R3 puts on a configuration: `FEAT_AA32EL2 -> HaveEL2` and `HighestEL = EL2 -> HaveEL2`. A
configuration that breaks one is refused (R12, D4). -/
def Config.legal (c : Config) : Bool :=
  (!c.featAA32EL2 || c.haveEL2) && (c.highestEL != .el2 || c.haveEL2)

/-- CFG_FULL of the test vectors (spec file 95), with HighestEL = EL2, hardwired reserved bits, FEAT_AA64EL2 and reset
parameters 0. The reset configuration (DESIGN CHOICE, log 1, unsafe for a claim about `State.reset` alone). -/
def Config.full : Config where
  featAA32EL2 := true
  featAA64EL2 := true
  haveEL2 := true
  highestEL := .el2
  featSSBS := true
  featMixedEnd := true
  featBigEnd := false
  mixedEndEL2 := true
  itdImplemented := true
  cp15benImplemented := true
  featLSMAOC := true
  resetDSSBS := false
  resetTE := false
  resetEE := false
  resPolicy := .hardwired

/-- CFG_MIN of the test vectors: no optional control is implemented. -/
def Config.minimal : Config :=
  { Config.full with
    featSSBS := false, featMixedEnd := false, mixedEndEL2 := false, itdImplemented := false,
    cp15benImplemented := false, featLSMAOC := false }

/-- CFG_BE of the test vectors: CFG_MIN with FEAT_BigEnd. -/
def Config.bigEnd : Config := { Config.minimal with featBigEnd := true }

/-- CFG_V80 of the test vectors. -/
def Config.v80 : Config := { Config.full with featSSBS := false, featLSMAOC := false }

/-- Memory types named by R61 and R72. -/
inductive MemType where
  | normal | deviceGRE | deviceNGRE | deviceNGnRE | deviceNGnRnE
deriving DecidableEq, Repr, Inhabited

/-- What the stage 1 tables of the EL2 regime say of the addresses from `base` on, `size` of them: the predicates
`table_permits_execute`, `table_permits_write` of R65 and `stage1_type` of R72. The tables are outside the spec, so this
is an input (log 23). -/
structure Region where
  base : Nat
  size : Nat
  execute : Bool
  write : Bool
  memType : MemType
deriving DecidableEq, Repr, Inhabited

/-- The classes of instructions that R67, R68 and R72 tell apart: load/store exclusive (with the register that takes the
status of an exclusive store, log 40), load-acquire/store-release, Load Multiple and Store Multiple, and every other load
or store. -/
inductive AccessClass where
  | plain
  | exclusive (status : Fin 15)
  | ordered
  | multiple
deriving DecidableEq, Repr, Inhabited

/-- The size of a data element: 1, 2, 4 or 8 bytes, an element of 8 bytes in two registers. Which sizes exist is not in
the spec (N13; DESIGN CHOICE, log 25). -/
inductive AccessSize where
  | byte | half | word
  | double (second : Fin 15)
deriving DecidableEq, Repr, Inhabited

/-- The direction of an access and the register it moves. -/
inductive AccessOp where
  | load (t : Fin 15)
  | store (t : Fin 15)
deriving DecidableEq, Repr, Inhabited

/-- One data access that an instruction outside the table makes (opening of spec file 20, log 25). -/
structure Access where
  cls : AccessClass
  op : AccessOp
  size : AccessSize
  addr : Word
deriving DecidableEq, Repr, Inhabited

/-- What an instruction outside the spec leaves behind in the part of the machine around HSCTLR: `exec_outside_scope` of
spec file 41, and any step of the outside agent of R39. HSCTLR is not in it (log 18). -/
structure Outside where
  regs : Vector Word 15
  pc : Word
  el : EL
  iset : ISet
  pstateE : Bool
  ssbs : Bool
  itState : BitVec 8
  /-- Inside an IT block, the next instruction is the one after the IT (log 18). -/
  afterIt : Bool
  scrNS : Bool
  hstrT1 : Bool
  hstrEl2T1 : Bool
  el2Enabled : Bool
  el2UsingAArch32 : Bool
  sctlrSED : Bool
  sctlrITD : Bool
  sctlrCP15BEN : Bool
  regions : List Region
  /-- The bytes it stores, in order. -/
  stores : List (Word × Byte)
  /-- It is a context synchronisation event (R144). -/
  synchronises : Bool
  /-- It invalidates the TLB (R145). -/
  invalidatesTlb : Bool
  /-- It ends in an exception taken to Hyp mode (R124 to R126). -/
  exceptionToHyp : Bool
deriving DecidableEq, Repr, Inhabited

/-- An instruction outside the spec: the data accesses it makes, in the order it makes them, and what it leaves behind. -/
structure OutsideInstr where
  accesses : List Access
  effect : Outside
deriving DecidableEq, Repr, Inhabited

/-- `draw(T)` for bits: a word that nothing constrains, one for each step and each use in the step (log 2). -/
opaque Config.freeWord : Nat → Nat → Word

/-- `draw(IT_width_policy)` of R105 (log 35). -/
opaque Config.freeItWidth : Nat → ItWidth

/-- The address at which an exception taken to Hyp mode goes on: the spec gives no vector (R127, log 7). -/
opaque Config.freeHandler : Nat → Word

/-- R[0] to R[14] as Hyp mode sees them when it is entered: banking is not in the spec (R40, log 8). -/
opaque Config.freeRegs : Nat → Vector Word 15

/-- The IT state after an exception entry, which the spec does not give (R127, log 8). -/
opaque Config.freeItState : Nat → BitVec 8

/-- `exec_outside_scope`: the meaning of an instruction outside the spec, of which nothing is known (log 18). -/
opaque Config.outsideScope : Nat → OutsideInstr

/-- What a reset of a running machine leaves in the state beside HSCTLR, which the spec does not give (N16, log 3). -/
opaque Config.freeAround : Nat → Outside

end Sys2Proof
end

