-- ==== Sys2Proof/Machine/Hsctlr.lean ====
section
/-! DEFINITION. The register HSCTLR (spec file 10): fields, masks, reading and writing, effective values, reset. -/

namespace Sys2Proof.Machine

/-- The thirteen named fields (R14). -/
inductive Field where
  | dssbs | te | ee | wxn | i | sed | itd | cp15ben | lsmaoe | ntlsmd | c | a | m
deriving DecidableEq, Repr

/-- The bit of a field (R14). -/
def Field.bit : Field → Nat
  | .dssbs => 31
  | .te => 30
  | .ee => 25
  | .wxn => 19
  | .i => 12
  | .sed => 8
  | .itd => 7
  | .cp15ben => 5
  | .lsmaoe => 4
  | .ntlsmd => 3
  | .c => 2
  | .a => 1
  | .m => 0

/-- `w` when `b`, else no bit. -/
def maskIf (b : Bool) (w : Word) : Word := if b then w else 0#32

/-- `CTRL` of R15: the bits that are controls in the configuration. -/
def ctrlMask (c : Config) : Word :=
  0x40081007#32 ||| maskIf c.featSSBS 0x80000000#32 ||| maskIf c.featMixedEnd 0x02000000#32
    ||| maskIf c.mixedEndEL2 0x00000100#32 ||| maskIf c.itdImplemented 0x00000080#32
    ||| maskIf c.cp15benImplemented 0x00000020#32 ||| maskIf c.featLSMAOC 0x00000018#32

/-- `RES1M` of R15. -/
def res1Mask (c : Config) : Word :=
  0x30C50800#32 ||| maskIf (!c.featMixedEnd && c.featBigEnd) 0x02000000#32
    ||| maskIf (!c.mixedEndEL2) 0x00000100#32 ||| maskIf (!c.featLSMAOC) 0x00000018#32

/-- `RES0M` of R15. -/
def res0Mask (c : Config) : Word :=
  0x0D32E640#32 ||| maskIf (!c.featSSBS) 0x80000000#32
    ||| maskIf (!c.featMixedEnd && !c.featBigEnd) 0x02000000#32

/-- `RAZWI` of R15. -/
def razwiMask (c : Config) : Word := maskIf (!c.itdImplemented) 0x00000080#32

/-- `RAOWI` of R15. -/
def raowiMask (c : Config) : Word := maskIf (!c.cp15benImplemented) 0x00000020#32

/-- The bits a TLB may hold an old value of: WXN, LSMAOE, nTLSMD (R73). -/
def tlbMask : Word := 0x00080018#32

/-- The register as State holds it: `S` of R13 and, bit by bit, what is not known of it. -/
structure Hsctlr where
  /-- `S`, HSCTLR and SCTLR_EL2[31:0] (R13). -/
  stored : Word
  /-- Bits of `S` that are UNKNOWN since a reset (R37, R38). -/
  unknown : Word
  /-- Control bits that a write may have changed since the last context synchronisation event (R144). -/
  pending : Word
  /-- Bits of `tlbMask` that a write may have changed since the last TLB invalidation (R145). -/
  tlbStale : Word
deriving DecidableEq, Repr

/-- `S` with each UNKNOWN bit replaced by the draw `d` (R35, D6). -/
def Hsctlr.value (h : Hsctlr) (d : Word) : Word := (h.stored &&& ~~~h.unknown) ||| (d &&& h.unknown)

/-- `ReadHSCTLR()` of R35 on the value `s` of `S`. -/
def readMasked (c : Config) (s : Word) : Word :=
  match c.resPolicy with
  | .hardwired => (s &&& ctrlMask c) ||| res1Mask c ||| raowiMask c
  | .stored => (s &&& (ctrlMask c ||| res0Mask c ||| res1Mask c)) ||| raowiMask c

/-- The writable bits, `W` of R36. -/
def writeMask (c : Config) : Word :=
  match c.resPolicy with
  | .hardwired => ctrlMask c
  | .stored => ctrlMask c ||| res0Mask c ||| res1Mask c

/-- `WriteHSCTLR(v)` of R36 on the value `s` of `S`. -/
def writeMasked (c : Config) (s v : Word) : Word := (s &&& ~~~writeMask c) ||| (v &&& writeMask c)

/-- The control bits of the register that a write of `v` may change: those where `v` differs from `S` and those whose old
value is UNKNOWN (R144). -/
def Hsctlr.changedBy (c : Config) (h : Hsctlr) (v : Word) : Word := ((h.stored ^^^ v) ||| h.unknown) &&& ctrlMask c

/-- A direct write (R36, R92): the written bits are known from now on, and the changed ones are pending until they are
synchronised (R144), the three of R73 also until the TLB is invalidated (R145). -/
def Hsctlr.write (c : Config) (h : Hsctlr) (v : Word) : Hsctlr where
  stored := writeMasked c h.stored v
  unknown := h.unknown &&& ~~~writeMask c
  pending := h.pending ||| h.changedBy c v
  tlbStale := h.tlbStale ||| (h.changedBy c v &&& tlbMask)

/-- A write of SCTLR_EL2 by an agent outside the spec changes `S` (R13, D16). How the AArch64 name treats reserved bits is
not stated: every bit takes the agent's value (log 27). -/
def Hsctlr.writeFromOutside (c : Config) (h : Hsctlr) (v : Word) : Hsctlr where
  stored := v
  unknown := 0#32
  pending := h.pending ||| h.changedBy c v
  tlbStale := h.tlbStale ||| (h.changedBy c v &&& tlbMask)

/-- A context synchronisation event (R144). -/
def Hsctlr.synchronise (h : Hsctlr) : Hsctlr := { h with pending := 0#32 }

/-- A TLB invalidation (R145). -/
def Hsctlr.invalidateTlb (h : Hsctlr) : Hsctlr := { h with tlbStale := 0#32 }

/-- `Eff(F)` of R34, under the draw `d`: a control is the bit of `S`, or a draw while the bit is UNKNOWN, pending or
stale (D6, R144, R145); a fixed field has its fixed value whatever `S` and the policy are. -/
def Hsctlr.eff (c : Config) (h : Hsctlr) (d : Word) (f : Field) : Bool :=
  if (ctrlMask c).getLsbD f.bit then
    if (h.unknown ||| h.pending ||| h.tlbStale).getLsbD f.bit then d.getLsbD f.bit else h.stored.getLsbD f.bit
  else (res1Mask c ||| raowiMask c).getLsbD f.bit

/-- The control bits that R37 gives a value at a Warm reset, with that value; every other bit 0. -/
def resetStored (c : Config) : Word :=
  (maskIf c.resetDSSBS 0x80000000#32 ||| maskIf c.resetTE 0x40000000#32 ||| maskIf c.resetEE 0x02000000#32
    ||| maskIf (c.highestEL == .el2) 0x00000018#32) &&& ctrlMask c

/-- The bits that are UNKNOWN after a reset: WXN, SED, ITD, CP15BEN, A, and when the highest level is not EL2 also I,
LSMAOE, nTLSMD, C, M (R37); under `stored` the reserved bits too (R38). -/
def resetUnknown (c : Config) : Word :=
  ((0x000801A2#32 ||| maskIf (c.highestEL != .el2) 0x0000101D#32) &&& ctrlMask c)
    ||| maskIf (c.resPolicy == .stored) (res0Mask c ||| res1Mask c)

/-- HSCTLR after a Warm reset (R37), and after a Cold reset, which the spec gives the same effect (R38, R140, D5). No
write is pending: the table under R141 gives the fields their reset values at once (log 11). -/
def Hsctlr.reset (c : Config) : Hsctlr where
  stored := resetStored c
  unknown := resetUnknown c
  pending := 0#32
  tlbStale := 0#32

end Sys2Proof.Machine
end

