-- ==== Sys2Proof/Syntax.lean ====
section
/-! DEFINITION. The instructions: one constructor per row of the opcode table. Operand forms that the spec decodes and
then refuses (R84, vectors E8, E9, E20) are terms of this type too; their meaning refuses them by name. -/

namespace Sys2Proof

inductive Instr where
  /-- MRC_HSCTLR_A32 (R82, R91): `cond` bits 31:28, `rt` bits 15:12. -/
  | mrcA32 (cond rt : BitVec 4)
  /-- MCR_HSCTLR_A32 (R82, R92). -/
  | mcrA32 (cond rt : BitVec 4)
  /-- MRC_HSCTLR_T32 (R83, R91): `rt` is hw2[15:12]. -/
  | mrcT32 (rt : BitVec 4)
  /-- MCR_HSCTLR_T32 (R83, R92). -/
  | mcrT32 (rt : BitVec 4)
  /-- SETEND_A32 (R86, R100): `big` is bit 9, true is BE. -/
  | setendA32 (big : Bool)
  /-- SETEND_T16 (R86, R100): `big` is bit 3. -/
  | setendT16 (big : Bool)
  /-- IT_T16 (R86, R101, R102): `firstcond` is hw1[7:4], `mask` is hw1[3:0], not zero. -/
  | itT16 (firstcond mask : BitVec 4)
  /-- ITD_K1 (R85): a first halfword 0b11xxxxxxxxxxxxxx, with the second halfword of a 32-bit instruction (R88). -/
  | itdK1 (hw1 : Half) (hw2 : Option Half)
  /-- ITD_K2 (R85): 0b1011xxxxxxxxxxxx. -/
  | itdK2 (hw1 : Half)
  /-- ITD_K3 (R85): 0b10100xxxxxxxxxxx. -/
  | itdK3 (hw1 : Half)
  /-- ITD_K4 (R85): 0b01001xxxxxxxxxxx. -/
  | itdK4 (hw1 : Half)
  /-- ITD_K5 (R85): 0b0100x1xxx1111xxx. -/
  | itdK5 (hw1 : Half)
  /-- ITD_K6 (R85): 0b010001xx1xxxx111. -/
  | itdK6 (hw1 : Half)
  /-- CP15DMB_A32 (R86, R107). -/
  | cp15dmbA32 (cond rt : BitVec 4)
  /-- CP15DMB_T32 (R86, R107). -/
  | cp15dmbT32 (rt : BitVec 4)
  /-- CP15DSB_A32 (R86, R108). -/
  | cp15dsbA32 (cond rt : BitVec 4)
  /-- CP15DSB_T32 (R86, R108). -/
  | cp15dsbT32 (rt : BitVec 4)
  /-- CP15ISB_A32 (R86, R109). -/
  | cp15isbA32 (cond rt : BitVec 4)
  /-- CP15ISB_T32 (R86, R109). -/
  | cp15isbT32 (rt : BitVec 4)
deriving DecidableEq, Repr, Inhabited

/-- The instruction set an instruction belongs to (R82, R83, R86). -/
def Instr.iset : Instr → ISet
  | .mrcA32 _ _ | .mcrA32 _ _ | .setendA32 _ | .cp15dmbA32 _ _ | .cp15dsbA32 _ _ | .cp15isbA32 _ _ => .a32
  | .mrcT32 _ | .mcrT32 _ | .setendT16 _ | .itT16 _ _ | .itdK1 _ _ | .itdK2 _ | .itdK3 _ | .itdK4 _ | .itdK5 _
  | .itdK6 _ | .cp15dmbT32 _ | .cp15dsbT32 _ | .cp15isbT32 _ => .t32

end Sys2Proof
end

