-- ==== Sys2Proof/Machine/State.lean ====
section
/-! DEFINITION. The state of the machine as plain data, its faults and refusals, and the state after reset. INVENTORY.md
lists every field with the rule that names it. -/

namespace Sys2Proof.Machine

/-- Memory: the bytes that have a value, by rising address. An unlisted byte has none (log 22). -/
abbrev Memory := List Host.Cell

/-- A step of the machine around HSCTLR (log 27). -/
inductive Event where
  /-- A Warm reset (R140). -/
  | warmReset
  /-- A Cold reset (R140, D5). -/
  | coldReset
  /-- An exception taken to Hyp mode for a reason outside the spec (R124 to R126). -/
  | exceptionToHyp
  /-- A write of SCTLR_EL2 (R13, D16). -/
  | writeSctlrEl2 (v : Word)
  /-- A context synchronisation event (R144). -/
  | contextSync
  /-- A TLB invalidation (R145). -/
  | tlbInvalidate
  /-- A data access of an instruction outside the table (R67 to R72). -/
  | access (a : Access)
  /-- Any other effect of the machine around (R39). -/
  | outside (o : Outside)
deriving DecidableEq, Repr

/-- Whose turn a step is: the PE's, which runs an instruction, or the machine's around HSCTLR (log 27). -/
inductive Turn where
  | instruction
  | around (e : Event)
deriving DecidableEq, Repr

/-- The machine. -/
structure State where
  /-- The parameters of R3; no step changes them. -/
  cfg : Config
  /-- HSCTLR (R10, R13). -/
  hsctlr : Hsctlr
  /-- `R[0]` to `R[14]` as the executing mode sees them (R40, R84). -/
  regs : Vector Word 15
  /-- The program counter (D11). -/
  pc : Word
  /-- `PSTATE.EL` (R39). -/
  el : EL
  /-- The instruction set state (R39, R124). -/
  iset : ISet
  /-- `PSTATE.E`, true is big-endian (R41, R70, R125). -/
  pstateE : Bool
  /-- `PSTATE.SSBS` (R41, R126); without FEAT_SSBS nothing reads or writes it (log 37). -/
  ssbs : Bool
  /-- The IT state, condition in bits 7:4 and mask in bits 3:0 (R39; layout PRESUMED, log 15). -/
  itState : BitVec 8
  /-- The next instruction is "the subsequent instruction" of an executed IT (R103). -/
  afterIt : Bool
  /-- `SCR.NS` (R39). -/
  scrNS : Bool
  /-- `HSTR.T1` (R39). -/
  hstrT1 : Bool
  /-- `HSTR_EL2.T1` (R39). -/
  hstrEl2T1 : Bool
  /-- `EL2Enabled()` (R39, D13). -/
  el2Enabled : Bool
  /-- `ELUsingAArch32(EL2)` (R39, D13). -/
  el2UsingAArch32 : Bool
  /-- The SED control that gates SETEND at levels other than EL2 (GK13, log 26). -/
  sctlrSED : Bool
  /-- The ITD control that gates IT at levels other than EL2 (R24, GK13, log 26). -/
  sctlrITD : Bool
  /-- The CP15BEN control that gates the CP15 barriers at levels other than EL2 (R26, GK13, log 26). -/
  sctlrCP15BEN : Bool
  /-- The number carried by the last Hyp Trap that an MRC or MCR of HSCTLR has taken (R121). -/
  hypTrapEc : Option Nat
  /-- R[0] to R[14] as the mode left by the last exception taken to Hyp mode sees them (the model's own field, log 8). -/
  regsLeft : Option (Vector Word 15)
  /-- What the EL2 stage 1 tables say of addresses (R65, R72, log 23). -/
  regions : List Region
  /-- Memory. -/
  mem : Memory
  /-- Whose turns the next steps are, first one first; after the last one every step is the PE's (the model's own field,
  log 27). -/
  turns : List Turn
  /-- The index of the free values of the last step (the model's own field, log 2). -/
  draws : Nat
deriving DecidableEq, Repr

/-- How a step stops the machine. -/
inductive Fault where
  /-- `Undefined()` of R120: raised by the access check (R90), SETEND (R100), IT (R102) and the CP15 barriers (R107 to
  R109). Where the exception is taken is not in the spec (R127, D8). Safe: the machine stops (log 6). -/
  | undefined
  /-- `Undefined()` of the instruction after an IT (R103 to R105): how the IT counted and the address the exception
  reports. Safe (log 6, log 35). -/
  | undefinedAfterIt (width : ItWidth) (addr : Word)
  /-- `AArch64_AArch32SystemAccessTrap(target, ec)` of R122: raised by MRC and MCR at EL1. Safe: what the AArch64 EL2 does
  is outside the spec (log 6). -/
  | aarch32SystemAccessTrap (target : EL) (ec : Nat)
  /-- `DataAbort(AlignmentFault)` of R67, raised by a data access. Safe (log 6). -/
  | dataAbortAlignment
  /-- `Stage1AlignmentFault` of R72, raised by a data access of a Load or Store Multiple. Safe (log 6). -/
  | stage1Alignment
  /-- A fetch that R65 forbids; the spec does not name the fault (N22). Raised by the fetch of a step. Safe (log 24). -/
  | executeNever
  /-- A fetch or a load of a byte that nothing has written. Safe (log 22). -/
  | unwrittenMemory
deriving DecidableEq, Repr

/-- Why a step has no meaning in the model. -/
inductive Refusal where
  /-- An instruction that has no meaning yet; raised by `exec` only. Safe. -/
  | notModelled (mnemonic : String)
  /-- A configuration that breaks a constraint of R3 (R12, D4); raised by `step`. Safe (log 28). -/
  | illegalConfiguration
  /-- An exception to Hyp mode in a machine that has none, without FEAT_AA32EL2 or with EL2 using AArch64 (R3, R122);
  raised by the event exceptionToHyp. Safe (log 39). -/
  | noHypMode
  /-- An MRC or MCR of HSCTLR with a condition other than "always" (R84, D2). Safe (log 16). -/
  | conditionNotAlways
  /-- An MRC or MCR of HSCTLR with t = 15, or in T32 with t = 13 (R84, D3). Safe (log 17). -/
  | registerNotAdmitted
  /-- An MCR in an IT block that sets ITD: CONSTRAINED UNPREDICTABLE (R106, R146, D19). Safe (log 33). -/
  | itdSetInItBlock
  /-- A misaligned data access that no check of HSCTLR catches (D24). Safe (log 25). -/
  | misalignedAccess
deriving DecidableEq, Repr

/-- What a step or an instruction answers. -/
abbrev Result (σ : Type) := Host.Outcome σ Fault Refusal

/-- The reset comes out in Hyp mode: EL2 is the highest level and uses AArch32 (R141, GK11). Which state EL2 resets in when
FEAT_AA32EL2 and FEAT_AA64EL2 are both implemented the spec does not say: AArch32 (DESIGN CHOICE, log 4). -/
def resetsIntoHyp (c : Config) : Bool := c.highestEL == .el2 && c.featAA32EL2

/-- The level a reset comes out at, where the model names one (log 4). -/
def resetLevel : HighestEL → EL
  | .el1 => .el1
  | .el2 => .el2
  | .el3 => .el3

/-- The machine right after a Warm reset in the configuration `c`: HSCTLR by R37 and R38; the instruction set, PSTATE.E
and PSTATE.SSBS by R141 and the table under it when the reset enters Hyp mode. When it does not (HighestEL is not EL2, or
no FEAT_AA32EL2) the spec gives no instruction set state (N16): A32 is the model's choice (DESIGN CHOICE, log 3). What the
stage 1 tables say right after reset it does not give either: nothing of any address (DESIGN CHOICE, log 23). Memory lists
no byte (log 22), no turn is planned (log 27), the draws begin at 0 (log 2), and every other field is at the value that log 3
or log 4 names. -/
def State.resetWith (c : Config) : State where
  cfg := c
  hsctlr := Hsctlr.reset c
  regs := Vector.replicate 15 0#32
  pc := 0#32
  el := resetLevel c.highestEL
  iset := if resetsIntoHyp c && (Hsctlr.reset c).eff c 0#32 .te then .t32 else .a32
  pstateE := resetsIntoHyp c && (Hsctlr.reset c).eff c 0#32 .ee
  ssbs := resetsIntoHyp c && c.featSSBS && (Hsctlr.reset c).eff c 0#32 .dssbs
  itState := 0#8
  afterIt := false
  scrNS := false
  hstrT1 := false
  hstrEl2T1 := false
  el2Enabled := c.haveEL2
  el2UsingAArch32 := c.featAA32EL2
  sctlrSED := false
  sctlrITD := false
  sctlrCP15BEN := true
  hypTrapEc := none
  regsLeft := none
  regions := []
  mem := []
  turns := []
  draws := 0

/-- The machine right after reset, in the reset configuration (log 1). -/
def State.reset : State := State.resetWith Config.full

end Sys2Proof.Machine
end

