-- ==== Sys2Proof/Machine/Ops.lean ====
section
/-! DEFINITION. The shared operations: free values, memory, the step past an instruction, the effect of the machine
around HSCTLR, and taking an exception to Hyp mode. -/

namespace Sys2Proof.Machine

/-! ## Free values (log 2) -/

/-- The draw of the `k`-th use in the step that runs in `s` (`draw(T)`, scope file 5.2). -/
def State.draw (s : State) (k : Nat) : Word := Config.freeWord s.draws k

/-- The state whose draws are fresh: no two steps share one. -/
def State.tick (s : State) : State := { s with draws := s.draws + 1 }

/-- `Eff(F)` of R34 at the `k`-th use in the step. Uses of one step: 0 the gate of the instruction after an IT, and the
checks of an access event; 1 the instruction's own read or gate; 2 a condition; 3 the entry to Hyp mode; 4 and 5 the
fetches; from 8 on the accesses of an instruction outside the table (log 2). -/
def State.eff (s : State) (k : Nat) (f : Field) : Bool := s.hsctlr.eff s.cfg (s.draw k) f

/-- "At EL2", where HSCTLR governs: Hyp mode (opening of spec file 20). Without FEAT_AA32EL2 there is none, and HSCTLR
governs nothing (R3, log 39). -/
def State.atHyp (s : State) : Bool := s.cfg.featAA32EL2 && s.el == .el2

/-- There is a Hyp mode to take an exception to: FEAT_AA32EL2, and EL2 uses AArch32 (R121; for an AArch64 EL2 R124 to R126
do not apply, R122). -/
def State.hasHypMode (s : State) : Bool := s.cfg.featAA32EL2 && s.el2UsingAArch32

/-! ## Memory (log 22) -/

/-- The byte at an address; none where nothing has been written. -/
def Memory.read : Memory → Nat → Option Byte
  | [], _ => none
  | (k, b) :: rest, a => if k = a then some b else Memory.read rest a

/-- Memory with the byte `b` at `a`, its addresses still rising. -/
def Memory.write : Memory → Nat → Byte → Memory
  | [], a, b => [(a, b)]
  | (k, c) :: rest, a, b =>
    if a < k then (a, b) :: (k, c) :: rest
    else if a = k then (a, b) :: rest
    else (k, c) :: Memory.write rest a b

/-- The addresses are strictly rising. -/
def Memory.rising : Memory → Bool
  | [] => true
  | [_] => true
  | (a, _) :: (b, c) :: rest => a < b && Memory.rising ((b, c) :: rest)

/-- The canonical form: rising addresses inside the 32-bit address space. No entry can equal what an unlisted address
reads as, since that is no value. -/
def Memory.wf (m : Memory) : Bool := Memory.rising m && m.all fun cell => cell.1 < 2 ^ 32

/-- `n` bytes from `a` upwards (addresses wrap at 32 bits, log 21); none if one has no value. -/
def Memory.readBytes (m : Memory) (a : Word) : Nat → Option (List Byte)
  | 0 => some []
  | n + 1 =>
    match Memory.read m a.toNat, Memory.readBytes m (a + 1#32) n with
    | some b, some bs => some (b :: bs)
    | _, _ => none

/-- Memory with the given bytes from `a` upwards. -/
def Memory.writeBytes : Memory → Word → List Byte → Memory
  | m, _, [] => m
  | m, a, b :: bs => Memory.writeBytes (Memory.write m a.toNat b) (a + 1#32) bs

/-- Memory after stores of single bytes, in order. -/
def Memory.writeAll : Memory → List (Word × Byte) → Memory
  | m, [] => m
  | m, (a, b) :: rest => Memory.writeAll (Memory.write m a.toNat b) rest

/-- The byte that the PE reads at an address. -/
def State.readByte (s : State) (a : Word) : Option Byte := Memory.read s.mem a.toNat

/-- The value of bytes in memory order: little-endian, or big-endian when `big` (R70, D17). -/
def joinBytes (big : Bool) (bs : List Byte) : Nat :=
  (if big then bs else bs.reverse).foldl (fun n b => n * 256 + b.toNat) 0

/-- The low `n` bytes of a value, least significant first. -/
def lowBytes (v : Nat) : Nat → List Byte
  | 0 => []
  | n + 1 => BitVec.ofNat 8 v :: lowBytes (v / 256) n

/-- The low `n` bytes of a value in memory order (R70, D17). -/
def splitBytes (big : Bool) (v n : Nat) : List Byte :=
  if big then (lowBytes v n).reverse else lowBytes v n

/-! ## Moving past an instruction (D11, log 32) -/

/-- Past an A32 instruction. It is not in an IT block, so the IT state stays (log 34). -/
def State.pastA32 (s : State) : State := { s with pc := s.pc + 4#32, afterIt := false }

/-- The IT state after one instruction: outside a block (mask zero) it stays; after the last instruction of a block it is
0; else the mask moves up by one bit into the condition (PRESUMED, log 15). -/
def itAdvance (it : BitVec 8) : BitVec 8 :=
  if it.extractLsb' 0 4 = 0#4 then it
  else if it.extractLsb' 0 3 = 0#3 then 0#8
  else it.extractLsb' 5 3 ++ (it.extractLsb' 0 4 ++ 0#1)

/-- Past a T32 instruction of `len` bytes. -/
def State.pastT32 (s : State) (len : Word) : State :=
  { s with pc := s.pc + len, itState := itAdvance s.itState, afterIt := false }

/-! ## The machine around HSCTLR -/

/-- A context synchronisation event (R144). -/
def State.synchronise (s : State) : State := { s with hsctlr := s.hsctlr.synchronise }

/-- HSCTLR after an effect of the machine around: `S` is not written (an access to HSCTLR is an MRC or MCR with the
selector of R81), but pending writes may be synchronised and the TLB invalidated. -/
def outsideHsctlr (o : Outside) (h : Hsctlr) : Hsctlr :=
  let h1 := if o.synchronises then h.synchronise else h
  if o.invalidatesTlb then h1.invalidateTlb else h1

/-- What the machine around leaves (R39): the rest of the state takes the values of `o` (log 18). Without FEAT_SSBS there
is no PSTATE.SSBS to change (R126). Whether the next instruction is still the one after an IT (R103), where the effect
leaves an IT block in force, the spec does not say: `o` says it (DESIGN CHOICE, log 18). -/
def State.setOutside (s : State) (o : Outside) : State :=
  { s with
    hsctlr := outsideHsctlr o s.hsctlr
    regs := o.regs, pc := o.pc, el := o.el, iset := o.iset, pstateE := o.pstateE
    ssbs := if s.cfg.featSSBS then o.ssbs else s.ssbs
    itState := o.itState, afterIt := o.afterIt && o.itState.extractLsb' 0 4 != 0#4
    scrNS := o.scrNS, hstrT1 := o.hstrT1, hstrEl2T1 := o.hstrEl2T1
    el2Enabled := o.el2Enabled, el2UsingAArch32 := o.el2UsingAArch32
    sctlrSED := o.sctlrSED, sctlrITD := o.sctlrITD, sctlrCP15BEN := o.sctlrCP15BEN
    regions := o.regions
    mem := Memory.writeAll s.mem o.stores }

/-! ## Taking an exception to Hyp mode -/

/-- `OnEntryToHypMode()` of spec file 60: the instruction set state by TE (R124), PSTATE.E by EE (R125), PSTATE.SSBS by
DSSBS when FEAT_SSBS is implemented (R126), each by its effective value at use 3 of the step. -/
def State.onEntryToHypMode (s : State) : State :=
  { s with
    iset := if s.eff 3 .te then .t32 else .a32
    pstateE := s.eff 3 .ee
    ssbs := if s.cfg.featSSBS then s.eff 3 .dssbs else s.ssbs }

/-- An exception taken to Hyp mode (R121, R124 to R126): EL2 and the process state of `onEntryToHypMode`. What else an
entry does is not in the spec (R127), so it is free: the handler's address, the IT state, and R[0] to R[14] as Hyp mode
sees them, while `regsLeft` keeps the registers of the mode left, which no rule writes (DESIGN CHOICE, log 7, log 8). The
entry is a context synchronisation event (PRESUMED, log 9). The first instruction of the handler is not the one after an
IT: no IT precedes it (R103). -/
def State.takeExceptionToHyp (s : State) : State :=
  { s.onEntryToHypMode with
    hsctlr := s.hsctlr.synchronise
    el := .el2
    regs := Config.freeRegs s.draws
    regsLeft := some s.regs
    pc := Config.freeHandler s.draws
    itState := Config.freeItState s.draws
    afterIt := false }

/-- `AArch32.TakeHypTrapException(ec)` (R121): the exception, carrying the number `ec`. -/
def State.takeHypTrap (s : State) (ec : Nat) : State := { s.takeExceptionToHyp with hypTrapEc := some ec }

/-- An effect of the machine around enters Hyp mode by an exception: it says so, or it goes up to EL2 from a lower level,
which only an exception does (GK11, log 18). The spec does not say whether there is a Hyp mode to enter when the effect
itself changes ELUsingAArch32(EL2): its value before the effect decides (DESIGN CHOICE, log 18). -/
def State.entersHyp (s : State) (o : Outside) : Bool :=
  s.hasHypMode && (o.exceptionToHyp || (o.el == .el2 && (s.el == .el0 || s.el == .el1)))

/-- `exec_outside_scope` (spec file 41), and any other effect of the machine around (R39). Where it ends in an exception
taken to Hyp mode, R124 to R126 apply as to every such exception. -/
def State.applyOutside (s : State) (o : Outside) : State :=
  if s.entersHyp o then (s.setOutside o).takeExceptionToHyp else s.setOutside o

/-- A Warm or Cold reset of a running machine (R140, D5): HSCTLR by R37 and R38, the entry into Hyp mode by R141, EL2 when
it is the highest level (R143). The first instruction after a reset is not the one after an IT: no IT precedes it (R103).
When the reset enters Hyp mode the first MCR needs no further set-up (R143), so it is outside an IT block, where R84 admits
a T32 one (DEDUCED, log 3), and ELUsingAArch32(EL2) is true, as it is in Hyp mode (log 4). Of the rest the spec says nothing (N16): it takes free values, and the two records of exceptions
taken are empty as they are in `State.resetWith` (DESIGN CHOICE, log 3). -/
def State.warmReset (s : State) : State :=
  let o := Config.freeAround s.draws
  let h := Hsctlr.reset s.cfg
  let hyp := resetsIntoHyp s.cfg
  { s.setOutside o with
    hsctlr := h
    el := if s.cfg.highestEL = .el2 then .el2 else o.el
    iset := if hyp then (if h.eff s.cfg (s.draw 3) .te then .t32 else .a32) else o.iset
    pstateE := if hyp then h.eff s.cfg (s.draw 3) .ee else o.pstateE
    ssbs := if s.cfg.featSSBS then (if hyp then h.eff s.cfg (s.draw 3) .dssbs else o.ssbs) else s.ssbs
    itState := if hyp then 0#8 else o.itState
    afterIt := false
    el2UsingAArch32 := hyp || o.el2UsingAArch32
    hypTrapEc := none
    regsLeft := none }

end Sys2Proof.Machine
end

