-- ==== Sys2Proof/Machine/Operands.lean ====
section
/-! DEFINITION. Operands: the general registers and which numbers an MRC or MCR admits (R40, R84), conditions (D2), the
IT block. -/

namespace Sys2Proof.Machine

/-- `R[t]` (R40); none for t = 15, which no rule gives a meaning. -/
def State.readReg (s : State) (t : BitVec 4) : Option Word := s.regs[t.toNat]?

/-- `R[t] <- v`. -/
def State.writeReg (s : State) (t : BitVec 4) (v : Word) : State :=
  { s with regs := s.regs.setIfInBounds t.toNat v }

/-- The register numbers that R84 admits for MRC and MCR in A32. -/
def admittedA32 (t : BitVec 4) : Bool := t != 15#4

/-- The register numbers that R84 admits for MRC and MCR in T32. -/
def admittedT32 (t : BitVec 4) : Bool := t != 13#4 && t != 15#4

/-- The condition "always" (R84). -/
def always : BitVec 4 := 0b1110#4

/-- Whether a condition holds: "always" does; of any other the spec has neither a table nor flags, so it is
drawn, at use 2 of the step (log 16). -/
def State.condHolds (s : State) (cond : BitVec 4) : Bool := cond == always || (s.draw 2).getLsbD 0

/-- Inside an IT block: the mask of the IT state is not zero (log 15). -/
def State.inItBlock (s : State) : Bool := s.itState.extractLsb' 0 4 != 0#4

/-- Whether a T32 instruction passes the condition of the IT block it is in, if it is in one. -/
def State.itCondHolds (s : State) : Bool := !s.inItBlock || s.condHolds (s.itState.extractLsb' 4 4)

end Sys2Proof.Machine
end

