-- ==== Sys2Proof/Machine/Patterns.lean ====
section
/-! DEFINITION. The bit patterns of the encodings (spec file 30): the selector fields of R81, the MRC and MCR layouts of
R82 and R83, the six classes of R85, SETEND and IT of R86, the length rule of R88. The layouts are the spec's general
knowledge GK4 and GK6 (PRESUMED, log 30). -/

namespace Sys2Proof.Machine

/-- The five selector fields of an MRC or MCR (R81). -/
structure Selector where
  coproc : BitVec 4
  opc1 : BitVec 3
  crn : BitVec 4
  crm : BitVec 4
  opc2 : BitVec 3
deriving DecidableEq, Repr

/-- The selector of HSCTLR (R81). -/
def hsctlrSelector : Selector := ⟨0b1111, 0b100, 0b0001, 0b0000, 0b000⟩

/-- CP15ISB, `MCR p15, 0, <Rt>, c7, c5, 4` (R86). -/
def isbSelector : Selector := ⟨0b1111, 0b000, 0b0111, 0b0101, 0b100⟩

/-- CP15DSB, `MCR p15, 0, <Rt>, c7, c10, 4` (R86). -/
def dsbSelector : Selector := ⟨0b1111, 0b000, 0b0111, 0b1010, 0b100⟩

/-- CP15DMB, `MCR p15, 0, <Rt>, c7, c10, 5` (R86). -/
def dmbSelector : Selector := ⟨0b1111, 0b000, 0b0111, 0b1010, 0b101⟩

/-- An MRC (`read`) or MCR: cond, 1110, opc1, L, CRn, Rt, coproc, opc2, 1, CRm, bit 31 first (R82). The T32 form is the
same word with 1110 in place of cond, hw1 its upper half (R83). -/
def sysMove (cond : BitVec 4) (read : Bool) (sel : Selector) (rt : BitVec 4) : Word :=
  cond ++ 0b1110#4 ++ sel.opc1 ++ BitVec.ofBool read ++ sel.crn ++ rt ++ sel.coproc ++ sel.opc2 ++ 0b1#1 ++ sel.crm

/-- Bits 27:24 and bit 4 of the layout of R82. -/
def isSysMove (w : Word) : Bool := w.extractLsb' 24 4 == 0b1110#4 && w.getLsbD 4

/-- The selector fields of a word in the layout of R82. -/
def selectorOf (w : Word) : Selector :=
  ⟨w.extractLsb' 8 4, w.extractLsb' 21 3, w.extractLsb' 16 4, w.extractLsb' 0 4, w.extractLsb' 5 3⟩

/-- Class K1 of R85, 0b11xxxxxxxxxxxxxx. -/
def isK1 (h : Half) : Bool := h &&& 0xC000#16 == 0xC000#16

/-- Class K2 of R85, 0b1011xxxxxxxxxxxx. -/
def isK2 (h : Half) : Bool := h &&& 0xF000#16 == 0xB000#16

/-- Class K3 of R85, 0b10100xxxxxxxxxxx. -/
def isK3 (h : Half) : Bool := h &&& 0xF800#16 == 0xA000#16

/-- Class K4 of R85, 0b01001xxxxxxxxxxx. -/
def isK4 (h : Half) : Bool := h &&& 0xF800#16 == 0x4800#16

/-- Class K5 of R85, 0b0100x1xxx1111xxx. -/
def isK5 (h : Half) : Bool := h &&& 0xF478#16 == 0x4478#16

/-- Class K6 of R85, 0b010001xx1xxxx111. -/
def isK6 (h : Half) : Bool := h &&& 0xFC87#16 == 0x4487#16

/-- `InITDClass(hw1)` of R85. -/
def inItdClass (h : Half) : Bool := isK1 h || isK2 h || isK3 h || isK4 h || isK5 h || isK6 h

/-- A T32 SETEND (R86): 0xB650 under mask 0xFFF7. -/
def isSetendT16 (h : Half) : Bool := h &&& 0xFFF7#16 == 0xB650#16

/-- An IT (R86): 0xBF00 under mask 0xFF00 with hw1[3:0] not zero. -/
def isIt (h : Half) : Bool := h &&& 0xFF00#16 == 0xBF00#16 && h.extractLsb' 0 4 != 0#4

/-- The first halfword of a 32-bit T32 instruction (R88): hw1[15:11] is 0b11101, 0b11110 or 0b11111. -/
def isWide (h : Half) : Bool :=
  h.extractLsb' 11 5 == 0b11101#5 || h.extractLsb' 11 5 == 0b11110#5 || h.extractLsb' 11 5 == 0b11111#5

/-- The halfword of a T32 SETEND: E at bit 3 (R86). -/
def setendHalf (big : Bool) : Half := if big then 0xB658#16 else 0xB650#16

/-- The halfword of an IT: 1011 1111 firstcond mask (R86). -/
def itHalf (firstcond mask : BitVec 4) : Half := 0xBF#8 ++ firstcond ++ mask

/-- hw1 of a T32 MRC or MCR, the upper half of the word of R83. -/
def sysMoveHw1 (read : Bool) (sel : Selector) (rt : BitVec 4) : Half :=
  (sysMove 0b1110#4 read sel rt).extractLsb' 16 16

end Sys2Proof.Machine
end

