-- ==== Sys2Proof/Machine/Flags.lean ====
section
/-! DEFINITION. The control bits that gate instructions. (The spec has no condition flags: R41.) In Hyp mode the gates
are HSCTLR's effective fields (spec file 41); elsewhere HSCTLR does not gate, and the same controls of SCTLR or SCTLR_EL1
are inputs (GK13, log 26). -/

namespace Sys2Proof.Machine

/-- SETEND is UNDEFINED (R100). -/
def State.setendDisabled (s : State) : Bool :=
  if s.atHyp then s.eff 1 .sed else s.sctlrSED

/-- The CP15 barriers are enabled (R107 to R109). -/
def State.barriersEnabled (s : State) : Bool :=
  if s.atHyp then s.eff 1 .cp15ben else s.sctlrCP15BEN

/-- The IT restrictions are in force (R101, R102), at use `k` of the step: 0 for the instruction after an IT, 1 for an IT
itself. -/
def State.itDisabled (s : State) (k : Nat) : Bool :=
  if s.atHyp then s.eff k .itd else s.sctlrITD

/-- The address that the Undefined exception of the instruction after an IT reports (R105): the instruction itself, or
the IT two bytes before it as the first half of a 32-bit instruction (log 35). -/
def reportedAddress (pc : Word) : ItWidth → Word
  | .it16 => pc
  | .it32half => pc - 2#32

/-- `After_IT_at_EL2` of R103 to R105: the fault of an instruction with first halfword `hw1` that follows an IT, if it
has one. Evaluated before any condition test (R104). -/
def State.afterItFault (s : State) (hw1 : Half) : Option Fault :=
  if s.afterIt && inItdClass hw1 && s.itDisabled 0 then
    some (.undefinedAfterIt (Config.freeItWidth s.draws) (reportedAddress s.pc (Config.freeItWidth s.draws)))
  else none

end Sys2Proof.Machine
end

