-- ==== Sys2Proof/Machine/Gated.lean ====
section
/-! DEFINITION. SETEND, IT and the CP15 barriers (spec file 41). Their guards are the spec's; what they do when allowed is
the general knowledge that the spec's pseudocode comments name (log 13, log 14, log 15). -/

namespace Sys2Proof.Machine

/-- SETEND when it is allowed: PSTATE.E takes the endianness asked for, if the condition holds (GK8, log 13). -/
def State.setEndian (s : State) (holds big : Bool) : State := if holds then { s with pstateE := big } else s

/-- SETEND_A32 (R86, R100). -/
def execSetendA32 (big : Bool) (s : State) : Result State :=
  if s.setendDisabled then .fault .undefined
  else .next (s.setEndian true big).pastA32

/-- SETEND_T16 (R86, R100); after an IT it is in class K2 (R103). -/
def execSetendT16 (big : Bool) (s : State) : Result State :=
  match s.afterItFault (setendHalf big) with
  | some f => .fault f
  | none =>
    if s.setendDisabled then .fault .undefined
    else .next ((s.setEndian s.itCondHolds big).pastT32 2#32)

/-- An IT that is allowed opens a block: the next instruction is the one after an IT (R103, log 15). -/
def State.openItBlock (s : State) (firstcond mask : BitVec 4) : State :=
  { s with pc := s.pc + 2#32, itState := firstcond ++ mask, afterIt := true }

/-- IT_T16 (R101, R102); after another IT it is in class K2 (R103). -/
def execItT16 (firstcond mask : BitVec 4) (s : State) : Result State :=
  match s.afterItFault (itHalf firstcond mask) with
  | some f => .fault f
  | none =>
    if mask != 0b1000#4 && s.itDisabled 1 then .fault .undefined
    else if s.itCondHolds then .next (s.openItBlock firstcond mask)
    else .next (s.pastT32 2#32)

/-- What a CP15 barrier does when it is allowed: DMB and DSB leave nothing to do in one core that runs its instructions in
order (log 14), ISB is a context synchronisation event (R144, log 9). -/
inductive Barrier where
  | dmb | dsb | isb
deriving DecidableEq, Repr

/-- The effect of a barrier whose condition holds or not. -/
def State.barrier (s : State) (b : Barrier) (holds : Bool) : State :=
  match b with
  | .dmb => s
  | .dsb => s
  | .isb => if holds then s.synchronise else s

/-- A CP15 barrier in A32: the guard of R107 to R109, whatever the condition, then the barrier. -/
def State.barrierA32 (s : State) (b : Barrier) (cond : BitVec 4) : Result State :=
  if s.barriersEnabled then .next (s.barrier b (s.condHolds cond)).pastA32 else .fault .undefined

/-- A CP15 barrier in T32; after an IT it is in class K1 (R103). -/
def State.barrierT32 (s : State) (b : Barrier) (hw1 : Half) : Result State :=
  match s.afterItFault hw1 with
  | some f => .fault f
  | none => if s.barriersEnabled then .next ((s.barrier b s.itCondHolds).pastT32 4#32) else .fault .undefined

/-- CP15DMB_A32 (R86, R107). -/
def execCp15dmbA32 (cond : BitVec 4) (s : State) : Result State := s.barrierA32 .dmb cond

/-- CP15DMB_T32 (R86, R107). -/
def execCp15dmbT32 (rt : BitVec 4) (s : State) : Result State := s.barrierT32 .dmb (sysMoveHw1 false dmbSelector rt)

/-- CP15DSB_A32 (R86, R108). -/
def execCp15dsbA32 (cond : BitVec 4) (s : State) : Result State := s.barrierA32 .dsb cond

/-- CP15DSB_T32 (R86, R108). -/
def execCp15dsbT32 (rt : BitVec 4) (s : State) : Result State := s.barrierT32 .dsb (sysMoveHw1 false dsbSelector rt)

/-- CP15ISB_A32 (R86, R109). -/
def execCp15isbA32 (cond : BitVec 4) (s : State) : Result State := s.barrierA32 .isb cond

/-- CP15ISB_T32 (R86, R109). -/
def execCp15isbT32 (rt : BitVec 4) (s : State) : Result State := s.barrierT32 .isb (sysMoveHw1 false isbSelector rt)

end Sys2Proof.Machine
end

