-- ==== Sys2Proof/Machine/Access.lean ====
section
/-! DEFINITION. What HSCTLR changes about memory accesses (spec file 20): translation, execute permission, memory type and
cacheability, alignment, byte order, order of Load and Store Multiple. -/

namespace Sys2Proof.Machine

/-! ## What the stage 1 tables say of an address (input of R65, R72; log 23) -/

/-- What holds of an address that no region lists: executable, not writable, Normal memory (DESIGN CHOICE, log 23). -/
def unlistedRegion : Region where
  base := 0
  size := 0
  execute := true
  write := false
  memType := .normal

/-- The address lies in the region. -/
def inRegion (r : Region) (a : Nat) : Bool := r.base ≤ a && a < r.base + r.size

/-- The first region that holds the address. -/
def findRegion : List Region → Nat → Region
  | [], _ => unlistedRegion
  | r :: rest, a => if inRegion r a then r else findRegion rest a

/-- What the tables say of an address. -/
def State.stage1 (s : State) (a : Word) : Region := findRegion s.regions a.toNat

/-- Device-nGRE, Device-nGnRE or Device-nGnRnE: the types R72 lists; Device-GRE is not among them. -/
def isNonGatheringDevice : MemType → Bool
  | .deviceNGRE | .deviceNGnRE | .deviceNGnRnE => true
  | .deviceGRE | .normal => false

/-- Any Device type. -/
def isDevice : MemType → Bool
  | .normal => false
  | .deviceGRE | .deviceNGRE | .deviceNGnRE | .deviceNGnRnE => true

/-! ## Translation, permission, memory type, cacheability -/

/-- EL2 stage 1 address translation is enabled (R60). The algorithm is not in the spec: the bit has no other translation
meaning here (R147, log 21). -/
def State.stage1Enabled (s : State) (k : Nat) : Bool := s.eff k .m

/-- `permit_execute(a)` of R65 for a fetch at EL2, at use `k` of the step; WXN applies only with M set (R66). A fetch at
another level is not HSCTLR's (R130). -/
def State.permitFetch (s : State) (k : Nat) (a : Word) : Bool :=
  if s.atHyp then
    (s.stage1 a).execute && !((s.stage1 a).write && s.stage1Enabled k && s.eff k .wxn)
  else true

/-- The memory R61 names for instruction accesses with M = 0: Normal, Outer Shareable, and this cacheability in the Inner
and Outer domains. -/
inductive FetchType where
  | nonCacheable | writeThrough
deriving DecidableEq, Repr

/-- R61: the type of instruction accesses of the EL2 regime when stage 1 is disabled; with it enabled the tables give the
type. Nothing without FEAT_AA32EL2 (log 39). -/
def State.fetchTypeDisabled (s : State) (k : Nat) : Option FetchType :=
  if !s.cfg.featAA32EL2 || s.stage1Enabled k then none
  else some (if s.eff k .i then .writeThrough else .nonCacheable)

/-- What HSCTLR says of the cacheability of an access. Permission to cache does not require it (R62, R63). -/
inductive Cacheability where
  | nonCacheable | mayBeCached | notGoverned
deriving DecidableEq, Repr

/-- Which accesses I and C are asked about: instruction accesses to Normal memory from a level, data accesses to Normal
memory from a level, accesses to the EL2 translation tables, accesses of the PL1&0 regime's walks. -/
inductive CachedAccess where
  | fetchFrom (el : EL)
  | dataFrom (el : EL)
  | el2Tables
  | pl10Walk
deriving DecidableEq, Repr

/-- What a control says: accesses may be cached when it is 1 and are Non-cacheable when it is 0. -/
def cachedWhen (b : Bool) : Cacheability := if b then .mayBeCached else .nonCacheable

/-- R62 for fetches from EL2, R63 for data accesses from EL2 and for the EL2 tables; neither bit reaches the PL1&0 regime
(R64), and nothing is governed without FEAT_AA32EL2 (log 39). -/
def State.cacheability (s : State) (k : Nat) (access : CachedAccess) : Cacheability :=
  if s.cfg.featAA32EL2 then
    match access with
    | .fetchFrom .el2 => cachedWhen (s.eff k .i)
    | .dataFrom .el2 => cachedWhen (s.eff k .c)
    | .el2Tables => cachedWhen (s.eff k .c)
    | .fetchFrom .el0 | .fetchFrom .el1 | .fetchFrom .el3 => .notGoverned
    | .dataFrom .el0 | .dataFrom .el1 | .dataFrom .el3 => .notGoverned
    | .pl10Walk => .notGoverned
  else .notGoverned

/-! ## Byte order -/

/-- Translation table walks by regime and stage. -/
inductive Walk where
  | el2Stage1 | pl10Stage1 | pl10Stage2
deriving DecidableEq, Repr

/-- R69: whether a walk is big-endian, where HSCTLR decides it. Stage 1 walks of the EL1&0 regime are not decided by it
(R19, conflict C1, log 29), and none without FEAT_AA32EL2 (log 39). -/
def State.walkBigEndian (s : State) (k : Nat) (walk : Walk) : Option Bool :=
  if s.cfg.featAA32EL2 then
    match walk with
    | .el2Stage1 => some (s.eff k .ee)
    | .pl10Stage2 => some (s.eff k .ee)
    | .pl10Stage1 => none
  else none

/-- A table entry of `n` bytes as a walk reads it (R69; the size of an entry is not in the spec). When a walk sees a store
is not in the spec (R75, N23): it reads all bytes at once from memory as every step before has left it, whatever type the
tables give it (DESIGN CHOICE, log 41). -/
def State.readTableEntry (s : State) (k : Nat) (walk : Walk) (a : Word) (n : Nat) : Option Nat :=
  match s.walkBigEndian k walk, Memory.readBytes s.mem a n with
  | some big, some bs => some (joinBytes big bs)
  | _, _ => none

/-! ## Order of Load Multiple and Store Multiple -/

/-- What the spec says of the order of the accesses of one Load or Store Multiple and of interrupts among them. -/
inductive MultipleOrder where
  | unorderedInterruptible | asArmv80 | notGoverned
deriving DecidableEq, Repr

/-- R71. `asArmv80` carries no guarantee: what Armv8.0 defines is not in the spec (N14), and of the two ways that R71 leaves
the model gives no ordering guarantee. So no step depends on this answer: whatever it is, the accesses of a multiple come
in any order and with any turn between them (log 36). -/
def State.multipleOrder (s : State) (k : Nat) : MultipleOrder :=
  if s.atHyp then (if s.eff k .lsmaoe then .asArmv80 else .unorderedInterruptible) else .notGoverned

/-! ## Data accesses -/

/-- How many bytes a data element has. -/
def elementSize : AccessSize → Nat
  | .byte => 1
  | .half => 2
  | .word => 4
  | .double _ => 8

/-- Load/store exclusive and load-acquire/store-release (R68). -/
def alwaysChecked : AccessClass → Bool
  | .exclusive _ | .ordered => true
  | .plain | .multiple => false

/-- A store that reaches the byte at `x`. -/
def storesTo (a : Access) (x : Word) : Bool :=
  match a.op with
  | .load _ => false
  | .store _ => (x - a.addr).toNat < elementSize a.size

/-- `a mod n != 0` (R67). -/
def misaligned (a : Word) (n : Nat) : Bool := a.toNat % n != 0

/-- The alignment check of R67 and R68 fails. -/
def State.alignmentFails (s : State) (k : Nat) (a : Access) : Bool :=
  s.atHyp && misaligned a.addr (elementSize a.size) && (alwaysChecked a.cls || s.eff k .a)

/-- The trap of R72 applies, whatever the alignment. -/
def State.multipleTraps (s : State) (k : Nat) (a : Access) : Bool :=
  s.atHyp && a.cls == .multiple && isNonGatheringDevice (s.stage1 a.addr).memType && !s.eff k .ntlsmd

/-- The fault of a data access, at uses `k` and `k + 1` of the step. The spec does not order the two faults (R123), so
where both apply a draw decides (log 25). -/
def State.accessFault (s : State) (k : Nat) (a : Access) : Option Fault :=
  match s.alignmentFails k a, s.multipleTraps k a with
  | false, false => none
  | true, false => some .dataAbortAlignment
  | false, true => some .stage1Alignment
  | true, true => some (if (s.draw (k + 1)).getLsbD 0 then .dataAbortAlignment else .stage1Alignment)

/-- The bytes of a stored element in memory order (R70). Of 8 bytes `R[t]` has the four at the lower addresses and
`R[second]` the others (PRESUMED, log 25). -/
def State.elementBytes (s : State) (t : Fin 15) : AccessSize → List Byte
  | .byte => splitBytes s.pstateE s.regs[t].toNat 1
  | .half => splitBytes s.pstateE s.regs[t].toNat 2
  | .word => splitBytes s.pstateE s.regs[t].toNat 4
  | .double second => splitBytes s.pstateE s.regs[t].toNat 4 ++ splitBytes s.pstateE s.regs[second].toNat 4

/-- The value of bytes in PSTATE.E's order as a register takes it: zeros above a narrow element (PRESUMED, log 25). -/
def State.loadedWord (s : State) (bs : List Byte) : Word := BitVec.ofNat 32 (joinBytes s.pstateE bs)

/-- The general registers after a load of the element `bs` (R70). -/
def State.loadElement (s : State) (t : Fin 15) (bs : List Byte) : AccessSize → Vector Word 15
  | .byte | .half | .word => s.regs.set t (s.loadedWord bs)
  | .double second => (s.regs.set t (s.loadedWord (bs.take 4))).set second (s.loadedWord (bs.drop 4))

/-- Bytes that nothing constrains: what a device answers and what it makes of a store (log 25). -/
def State.freeBytes (s : State) (n : Nat) : List Byte :=
  (lowBytes (s.draw 6).toNat 4 ++ lowBytes (s.draw 7).toNat 4).take n

/-- The bytes a load reads: those of memory as every step before has left them, also the steps of the machine around (DESIGN
CHOICE, log 41), or free ones where the tables say Device memory. The type of the first byte counts for all: of an access
across two regions the spec does not say which bytes are the device's (DESIGN CHOICE, log 25). -/
def State.loadBytes (s : State) (a : Word) (n : Nat) : Option (List Byte) :=
  if isDevice (s.stage1 a).memType then some (s.freeBytes n) else Memory.readBytes s.mem a n

/-- The bytes a store leaves: the element, or free ones where the tables say Device memory, the type of the first byte
counting for all (DESIGN CHOICE, log 25). -/
def State.storeBytes (s : State) (a : Word) (t : Fin 15) (size : AccessSize) : List Byte :=
  if isDevice (s.stage1 a).memType then s.freeBytes (elementSize size) else s.elementBytes t size

/-- The bytes `bs` stored. -/
def State.storeAt (s : State) (a : Word) (bs : List Byte) : State := { s with mem := Memory.writeBytes s.mem a bs }

/-- The end of an exclusive store: whether it stores is drawn, and its status register takes a free value. The spec has
no rule for exclusives beyond their alignment check (R75; DESIGN CHOICE, log 40). -/
def State.storeExclusive (s : State) (status : Fin 15) (a : Word) (bs : List Byte) : State :=
  let s1 : State := { s with regs := s.regs.set status (s.draw 3) }
  if (s.draw 2).getLsbD 0 then s1.storeAt a bs else s1

/-- The move of a data access that no check stops, all bytes of the element in one step: no turn falls between them, though
the spec gives no guarantee of atomicity (N13; DESIGN CHOICE, log 25). -/
def State.moveData (s : State) (a : Access) : Result State :=
  match a.op with
  | .load t =>
    match s.loadBytes a.addr (elementSize a.size) with
    | none => .fault .unwrittenMemory
    | some bs => .next { s with regs := s.loadElement t bs a.size }
  | .store t =>
    match a.cls with
    | .exclusive status => .next (s.storeExclusive status a.addr (s.storeBytes a.addr t a.size))
    | .plain | .ordered | .multiple => .next (s.storeAt a.addr (s.storeBytes a.addr t a.size))

/-- A data access: its fault by R67, R68 or R72; refused when misaligned and not caught (D24); else the move. Which tables
give the memory type of an access at another level than EL2 is not in the spec: at every level the regions of the state
stand for the tables of the regime in force (DESIGN CHOICE, log 23). -/
def State.runAccess (s : State) (a : Access) : Result State :=
  match s.accessFault 0 a with
  | some f => .fault f
  | none => if misaligned a.addr (elementSize a.size) then .refused .misalignedAccess else s.moveData a

end Sys2Proof.Machine
end

