-- ==== Sys2Proof/Machine/ItdClass.lean ====
section
/-! DEFINITION. The instructions of the six ITD classes (R85), and the instructions of no row. The spec says when they are
UNDEFINED, and which checks their data accesses meet at EL2; what they do otherwise is `exec_outside_scope`, a free effect
of the machine around HSCTLR (log 18). -/

namespace Sys2Proof.Machine

/-- The fault of the first of some accesses that a check of R67, R68 or R72 stops; each has two draws of its own, from
use `k` on. -/
def State.firstAccessFault (s : State) : Nat → List Access → Option Fault
  | _, [] => none
  | k, a :: rest =>
    match s.accessFault k a with
    | some f => some f
    | none => s.firstAccessFault (k + 2) rest

/-- The effect of an instruction with these accesses: it stores no byte outside the accesses that were checked. -/
def storesWithin (accesses : List Access) (o : Outside) : Outside :=
  { o with stores := o.stores.filter fun st => accesses.any fun a => storesTo a st.1 }

/-- An instruction outside the spec that makes accesses of the kinds `admits` only: each access is checked (R67, R68, R72,
R110), the first that fails ends the step, and else the instruction has a free effect (log 18). -/
def State.outsideInstr (s : State) (admits : Access → Bool) (o : OutsideInstr) : Result State :=
  match s.firstAccessFault 8 (o.accesses.filter admits) with
  | some f => .fault f
  | none => .next (s.applyOutside (storesWithin (o.accesses.filter admits) o.effect))

/-- `exec_outside_scope` for bytes of no row and, in T32, of no class: an instruction outside the spec (R103, log 18). -/
def State.execOutsideScope (s : State) : Result State := s.outsideInstr (fun _ => true) (Config.outsideScope s.draws)

/-- `After_IT_at_EL2` (R103 to R105), else the instruction executes outside the spec. -/
def State.classInstr (s : State) (hw1 : Half) (admits : Access → Bool) : Result State :=
  match s.afterItFault hw1 with
  | some f => .fault f
  | none => s.outsideInstr admits (Config.outsideScope s.draws)

/-- The accesses of K4, "LDR Rd, [PC, #imm]": plain loads of a word. -/
def isLiteralLoad (a : Access) : Bool :=
  match a.cls, a.op, a.size with
  | .plain, .load _, .word => true
  | _, _, _ => false

/-- ITD_K1 (R103): loads and stores of every class are among its instructions. -/
def execItdK1 (hw1 : Half) (s : State) : Result State := s.classInstr hw1 fun _ => true

/-- ITD_K2 (R103): the miscellaneous 16-bit instructions, PUSH and POP among them. -/
def execItdK2 (hw1 : Half) (s : State) : Result State := s.classInstr hw1 fun _ => true

/-- ITD_K3 (R103): ADD, which accesses no memory. -/
def execItdK3 (hw1 : Half) (s : State) : Result State := s.classInstr hw1 fun _ => false

/-- ITD_K4 (R103): LDR of a literal. -/
def execItdK4 (hw1 : Half) (s : State) : Result State := s.classInstr hw1 isLiteralLoad

/-- ITD_K5 (R103): ADD, CMP, MOV, BX and BLX, which access no memory. -/
def execItdK5 (hw1 : Half) (s : State) : Result State := s.classInstr hw1 fun _ => false

/-- ITD_K6 (R103): ADD, CMP, MOV and BLX, which access no memory. -/
def execItdK6 (hw1 : Half) (s : State) : Result State := s.classInstr hw1 fun _ => false

end Sys2Proof.Machine
end

