-- ==== Sys2Proof/Machine/SysReg.lean ====
section
/-! DEFINITION. MRC and MCR of HSCTLR (spec file 40). -/

namespace Sys2Proof.Machine

/-- The verdicts of `AccessCheck()` (R90). -/
inductive Verdict where
  | undefined | trapToEL2AArch64 | trapToHypAArch32 | allow
deriving DecidableEq, Repr

/-- `AccessCheck()` of R90; the first test that holds decides. -/
def State.accessCheck (s : State) : Verdict :=
  if !s.cfg.featAA32EL2 then .undefined
  else match s.el with
    | .el0 => .undefined
    | .el1 =>
      if s.el2Enabled && s.cfg.featAA64EL2 && !s.el2UsingAArch32 && s.hstrEl2T1 then .trapToEL2AArch64
      else if s.el2Enabled && s.cfg.featAA32EL2 && s.el2UsingAArch32 && s.hstrT1 then .trapToHypAArch32
      else .undefined
    | .el2 => .allow
    | .el3 => if !s.scrNS then .undefined else .allow

/-- The number both trap calls carry (R4, R121, R122). -/
def trapEc : Nat := 0x03

/-- The access check put before an access: UNDEFINED and the AArch64 trap end the step (R120, R122), the Hyp Trap is
taken (R121), and an allowed access goes on as `go`. -/
def State.withAccess (s : State) (go : Result State) : Result State :=
  match s.accessCheck with
  | .undefined => .fault .undefined
  | .trapToEL2AArch64 => .fault (.aarch32SystemAccessTrap .el2 trapEc)
  | .trapToHypAArch32 => .next (s.takeHypTrap trapEc)
  | .allow => go

/-- `ReadHSCTLR()` in the state (R35), UNKNOWN bits drawn at use 1 of the step. -/
def State.readHsctlr (s : State) : Word := readMasked s.cfg (s.hsctlr.value (s.draw 1))

/-- `WriteHSCTLR(v)` in the state (R36). -/
def State.writeHsctlr (s : State) (v : Word) : State := { s with hsctlr := s.hsctlr.write s.cfg v }

/-- An MCR in an IT block that sets ITD at EL2 (R106): ITD is implemented, it is not known to be 1, and the value written
has it 1. -/
def State.setsItd (s : State) (v : Word) : Bool :=
  s.atHyp && s.cfg.itdImplemented && v.getLsbD Field.itd.bit
    && !(s.hsctlr.stored.getLsbD Field.itd.bit && !s.hsctlr.unknown.getLsbD Field.itd.bit)

/-- MRC_HSCTLR_A32 (R82, R84, R91). -/
def execMrcA32 (cond rt : BitVec 4) (s : State) : Result State :=
  if cond != always then .refused .conditionNotAlways
  else if !admittedA32 rt then .refused .registerNotAdmitted
  else s.withAccess (.next ((s.writeReg rt s.readHsctlr).pastA32))

/-- MCR_HSCTLR_A32 (R82, R84, R92). -/
def execMcrA32 (cond rt : BitVec 4) (s : State) : Result State :=
  if cond != always then .refused .conditionNotAlways
  else match s.readReg rt with
    | none => .refused .registerNotAdmitted
    | some v => s.withAccess (.next ((s.writeHsctlr v).pastA32))

/-- MRC_HSCTLR_T32 (R83, R84, R91). As the instruction after an IT it is in class K1 and R103 comes first (R123). -/
def execMrcT32 (rt : BitVec 4) (s : State) : Result State :=
  match s.afterItFault (sysMoveHw1 true hsctlrSelector rt) with
  | some f => .fault f
  | none =>
    if s.inItBlock then .refused .conditionNotAlways
    else if !admittedT32 rt then .refused .registerNotAdmitted
    else s.withAccess (.next ((s.writeReg rt s.readHsctlr).pastT32 4#32))

/-- MCR_HSCTLR_T32 (R83, R84, R92); in an IT block, setting ITD is refused by R106, every other form by R84. -/
def execMcrT32 (rt : BitVec 4) (s : State) : Result State :=
  match s.afterItFault (sysMoveHw1 false hsctlrSelector rt) with
  | some f => .fault f
  | none =>
    if !admittedT32 rt then .refused .registerNotAdmitted
    else match s.readReg rt with
      | none => .refused .registerNotAdmitted
      | some v =>
        if s.inItBlock then .refused (if s.setsItd v then .itdSetInItBlock else .conditionNotAlways)
        else s.withAccess (.next ((s.writeHsctlr v).pastT32 4#32))

end Sys2Proof.Machine
end

