-- ==== Sys2Proof/Machine/Dispatch.lean ====
section
/-! DEFINITION. exec: one arm per constructor of Instr, each one direct call of its meaning. -/

namespace Sys2Proof.Machine

def exec (i : Instr) (s : State) : Host.Outcome State Fault Refusal :=
  match i with
  | .mrcA32 cond rt => Sys2Proof.Machine.execMrcA32 cond rt s
  | .mcrA32 cond rt => Sys2Proof.Machine.execMcrA32 cond rt s
  | .mrcT32 rt => Sys2Proof.Machine.execMrcT32 rt s
  | .mcrT32 rt => Sys2Proof.Machine.execMcrT32 rt s
  | .setendA32 big => Sys2Proof.Machine.execSetendA32 big s
  | .setendT16 big => Sys2Proof.Machine.execSetendT16 big s
  | .itT16 firstcond mask => Sys2Proof.Machine.execItT16 firstcond mask s
  | .itdK1 hw1 _ => Sys2Proof.Machine.execItdK1 hw1 s
  | .itdK2 hw1 => Sys2Proof.Machine.execItdK2 hw1 s
  | .itdK3 hw1 => Sys2Proof.Machine.execItdK3 hw1 s
  | .itdK4 hw1 => Sys2Proof.Machine.execItdK4 hw1 s
  | .itdK5 hw1 => Sys2Proof.Machine.execItdK5 hw1 s
  | .itdK6 hw1 => Sys2Proof.Machine.execItdK6 hw1 s
  | .cp15dmbA32 cond _ => Sys2Proof.Machine.execCp15dmbA32 cond s
  | .cp15dmbT32 rt => Sys2Proof.Machine.execCp15dmbT32 rt s
  | .cp15dsbA32 cond _ => Sys2Proof.Machine.execCp15dsbA32 cond s
  | .cp15dsbT32 rt => Sys2Proof.Machine.execCp15dsbT32 rt s
  | .cp15isbA32 cond _ => Sys2Proof.Machine.execCp15isbA32 cond s
  | .cp15isbT32 rt => Sys2Proof.Machine.execCp15isbT32 rt s

end Sys2Proof.Machine
end

