-- ==== Sys2Proof/Machine/Events.lean ====
section
/-! DEFINITION. The steps of the machine around HSCTLR (R13, R39, R124 to R126, R140, R144, R145; log 27). -/

namespace Sys2Proof.Machine

/-- A write of SCTLR_EL2 by an agent outside the spec changes `S` (R13, D16). -/
def State.writeSctlrEl2 (s : State) (v : Word) : State := { s with hsctlr := s.hsctlr.writeFromOutside s.cfg v }

/-- A TLB invalidation from outside the spec (R145). -/
def State.invalidateTlb (s : State) : State := { s with hsctlr := s.hsctlr.invalidateTlb }

/-- One step of the machine around HSCTLR. From which levels an exception may be taken to Hyp mode, and whether EL2 must be
enabled, is not in the spec (N15): the event may come at every level, EL3 included, and with EL2Enabled() false (DESIGN
CHOICE, log 27). -/
def State.runEvent (s : State) : Event → Result State
  | .warmReset => .next s.warmReset
  | .coldReset => .next s.warmReset
  | .exceptionToHyp => if s.hasHypMode then .next s.takeExceptionToHyp else .refused .noHypMode
  | .writeSctlrEl2 v => .next (s.writeSctlrEl2 v)
  | .contextSync => .next s.synchronise
  | .tlbInvalidate => .next s.invalidateTlb
  | .access a => s.runAccess a
  | .outside o => .next (s.applyOutside o)

end Sys2Proof.Machine
end

