-- ==== Sys2Proof/WellFormed.lean ====
section
/-! DEFINITION. Well-formed instructions: the terms that some bits of the spec's encodings stand for. Whether the spec
admits an operand form (R84) is not decided here but in the meaning, which refuses it by name. -/

namespace Sys2Proof

open Machine

/-- The T32 words that have a row of their own beside class K1 (R83, R86). -/
def hasT32Row (w : Word) : Bool :=
  isSysMove w && w.extractLsb' 28 4 == 0b1110#4 &&
    (selectorOf w == hsctlrSelector ||
      (!w.getLsbD 20 && (selectorOf w == dmbSelector || selectorOf w == dsbSelector || selectorOf w == isbSelector)))

/-- The checks, one per constructor: an A32 cond of 0b1111 is no condition (R82); an IT has a nonzero mask (R86); a
halfword of class K1 to K6 lies in its class (R85), in no row of its own and in no earlier class, and has a second
halfword exactly when R88 makes it the first half of a 32-bit instruction. -/
def Instr.wellFormed : Instr → Bool
  | .mrcA32 cond _ | .mcrA32 cond _ | .cp15dmbA32 cond _ | .cp15dsbA32 cond _ | .cp15isbA32 cond _ => cond != 0b1111#4
  | .mrcT32 _ | .mcrT32 _ | .setendA32 _ | .setendT16 _ | .cp15dmbT32 _ | .cp15dsbT32 _ | .cp15isbT32 _ => true
  | .itT16 _ mask => mask != 0#4
  | .itdK1 hw1 none => isK1 hw1 && !isWide hw1
  | .itdK1 hw1 (some hw2) => isWide hw1 && !hasT32Row (hw1 ++ hw2)
  | .itdK2 hw1 => isK2 hw1 && !isSetendT16 hw1 && !isIt hw1
  | .itdK3 hw1 => isK3 hw1
  | .itdK4 hw1 => isK4 hw1
  | .itdK5 hw1 => isK5 hw1 && !isK4 hw1
  | .itdK6 hw1 => isK6 hw1 && !isK5 hw1 && !isK4 hw1

end Sys2Proof
end

