-- ==== Sys2Proof/Decode.lean ====
section
/-! DEFINITION. Decoding of A32 words and T32 halfwords into instructions, total on any bytes, and the encoder written
from the same tables (spec file 30). Fetch is little-endian, hw1 at the lower address (D12, PRESUMED, log 21). -/

namespace Sys2Proof

open Machine

/-- Why bytes are not an instruction of the opcode table. -/
inductive DecodeError where
  /-- Fewer bytes than the instruction has. -/
  | tooShort
  /-- An A32 word of no row (R87: what the neighbouring points hold is out of scope). -/
  | noRowA32 (w : Word)
  /-- A T32 halfword of no row and no class. -/
  | noRowT32 (hw1 : Half)
deriving DecidableEq, Repr

/-- The A32 rows (R82, R86). cond = 0b1111 holds SETEND and is no access to HSCTLR (R82). -/
def decodeA32 (w : Word) : Option Instr :=
  let cond := w.extractLsb' 28 4
  let rt := w.extractLsb' 12 4
  if cond = 0b1111#4 then
    if w &&& 0xFFFFFDFF#32 = 0xF1010000#32 then some (.setendA32 (w.getLsbD 9)) else none
  else if isSysMove w then
    if selectorOf w = hsctlrSelector then
      if w.getLsbD 20 then some (.mrcA32 cond rt) else some (.mcrA32 cond rt)
    else if w.getLsbD 20 then none
    else if selectorOf w = dmbSelector then some (.cp15dmbA32 cond rt)
    else if selectorOf w = dsbSelector then some (.cp15dsbA32 cond rt)
    else if selectorOf w = isbSelector then some (.cp15isbA32 cond rt)
    else none
  else none

/-- The 32-bit T32 instructions: the MRC and MCR rows of R83 and R86, else class K1 (R85, R88). -/
def decodeT32Wide (hw1 hw2 : Half) : Instr :=
  let w : Word := hw1 ++ hw2
  let rt := hw2.extractLsb' 12 4
  if isSysMove w && w.extractLsb' 28 4 == 0b1110#4 then
    if selectorOf w = hsctlrSelector then
      if w.getLsbD 20 then .mrcT32 rt else .mcrT32 rt
    else if w.getLsbD 20 then .itdK1 hw1 (some hw2)
    else if selectorOf w = dmbSelector then .cp15dmbT32 rt
    else if selectorOf w = dsbSelector then .cp15dsbT32 rt
    else if selectorOf w = isbSelector then .cp15isbT32 rt
    else .itdK1 hw1 (some hw2)
  else .itdK1 hw1 (some hw2)

/-- The 16-bit T32 instructions: SETEND and IT (R86) before the class K2 they lie in, then the classes of R85 in their
order, since K4 and K5, K5 and K6 share halfwords (log 19). -/
def decodeT32Narrow (hw1 : Half) : Option Instr :=
  if isSetendT16 hw1 then some (.setendT16 (hw1.getLsbD 3))
  else if isIt hw1 then some (.itT16 (hw1.extractLsb' 4 4) (hw1.extractLsb' 0 4))
  else if isK1 hw1 then some (.itdK1 hw1 none)
  else if isK2 hw1 then some (.itdK2 hw1)
  else if isK3 hw1 then some (.itdK3 hw1)
  else if isK4 hw1 then some (.itdK4 hw1)
  else if isK5 hw1 then some (.itdK5 hw1)
  else if isK6 hw1 then some (.itdK6 hw1)
  else none

/-- A halfword from its two bytes, the first at the lower address (D12). -/
def halfOfBytes (b0 b1 : Byte) : Half := b1 ++ b0

/-- A word from its four bytes, the first at the lower address (D12). -/
def wordOfBytes (b0 b1 b2 b3 : Byte) : Word := b3 ++ b2 ++ b1 ++ b0

/-- The instruction at the head of a list of bytes, and the bytes after it. -/
def decode : ISet → List Byte → Except DecodeError (Instr × List Byte)
  | .a32, b0 :: b1 :: b2 :: b3 :: rest =>
    match decodeA32 (wordOfBytes b0 b1 b2 b3) with
    | some i => .ok (i, rest)
    | none => .error (.noRowA32 (wordOfBytes b0 b1 b2 b3))
  | .t32, b0 :: b1 :: rest =>
    if isWide (halfOfBytes b0 b1) then
      match rest with
      | b2 :: b3 :: rest' => .ok (decodeT32Wide (halfOfBytes b0 b1) (halfOfBytes b2 b3), rest')
      | _ => .error .tooShort
    else
      match decodeT32Narrow (halfOfBytes b0 b1) with
      | some i => .ok (i, rest)
      | none => .error (.noRowT32 (halfOfBytes b0 b1))
  | _, _ => .error .tooShort

/-- The bytes of a halfword in memory order (D12). -/
def bytesOfHalf (h : Half) : List Byte := [h.extractLsb' 0 8, h.extractLsb' 8 8]

/-- The bytes of a word in memory order (D12). -/
def bytesOfWord (w : Word) : List Byte :=
  [w.extractLsb' 0 8, w.extractLsb' 8 8, w.extractLsb' 16 8, w.extractLsb' 24 8]

/-- The bytes of a 32-bit T32 instruction given as hw1:hw2, hw1 first (R83). -/
def bytesOfPair (w : Word) : List Byte := bytesOfHalf (w.extractLsb' 16 16) ++ bytesOfHalf (w.extractLsb' 0 16)

/-- The bytes of an instruction, in memory order, from the layouts of R82, R83, R85 and R86. -/
def encode : Instr → List Byte
  | .mrcA32 cond rt => bytesOfWord (sysMove cond true hsctlrSelector rt)
  | .mcrA32 cond rt => bytesOfWord (sysMove cond false hsctlrSelector rt)
  | .mrcT32 rt => bytesOfPair (sysMove 0b1110#4 true hsctlrSelector rt)
  | .mcrT32 rt => bytesOfPair (sysMove 0b1110#4 false hsctlrSelector rt)
  | .setendA32 big => bytesOfWord (if big then 0xF1010200#32 else 0xF1010000#32)
  | .setendT16 big => bytesOfHalf (setendHalf big)
  | .itT16 firstcond mask => bytesOfHalf (itHalf firstcond mask)
  | .itdK1 hw1 none => bytesOfHalf hw1
  | .itdK1 hw1 (some hw2) => bytesOfHalf hw1 ++ bytesOfHalf hw2
  | .itdK2 hw1 => bytesOfHalf hw1
  | .itdK3 hw1 => bytesOfHalf hw1
  | .itdK4 hw1 => bytesOfHalf hw1
  | .itdK5 hw1 => bytesOfHalf hw1
  | .itdK6 hw1 => bytesOfHalf hw1
  | .cp15dmbA32 cond rt => bytesOfWord (sysMove cond false dmbSelector rt)
  | .cp15dmbT32 rt => bytesOfPair (sysMove 0b1110#4 false dmbSelector rt)
  | .cp15dsbA32 cond rt => bytesOfWord (sysMove cond false dsbSelector rt)
  | .cp15dsbT32 rt => bytesOfPair (sysMove 0b1110#4 false dsbSelector rt)
  | .cp15isbA32 cond rt => bytesOfWord (sysMove cond false isbSelector rt)
  | .cp15isbT32 rt => bytesOfPair (sysMove 0b1110#4 false isbSelector rt)

/-- The assembler spelling of an MRC or MCR with condition "always" (R80; operand spelling GK4). -/
def sysMoveAsm (read : Bool) (sel : Selector) (rt : BitVec 4) : String :=
  (if read then "MRC" else "MCR") ++ " p" ++ toString sel.coproc.toNat ++ ", " ++ toString sel.opc1.toNat ++ ", r" ++
    toString rt.toNat ++ ", c" ++ toString sel.crn.toNat ++ ", c" ++ toString sel.crm.toNat ++ ", " ++
    toString sel.opc2.toNat

/-- Whether a table word of 32 bits is laid out as T32 (hw1 its upper half) rather than as an A32 word. The table gives
an MRC, MCR or CP15 barrier with cond = 0b1110 the same number in both sets; such a word is taken as T32, every other
word that an A32 row matches as A32 (DESIGN CHOICE, log 20). -/
def tableWordIsT32 (nbits : Nat) (w : Word) : Bool :=
  nbits ≤ 16 || hasT32Row w || (decodeA32 w).isNone

/-- The bytes in memory order of a table word of `nbits` bits whose further bits are zero. -/
def tableBytes (nbits w : Nat) : List Byte :=
  let v : Word := BitVec.ofNat 32 w
  if nbits ≤ 16 then bytesOfHalf (v.extractLsb' 0 16) ++ bytesOfHalf 0#16
  else if tableWordIsT32 nbits v then bytesOfPair v
  else bytesOfWord v

/-- The instruction set of a table word. -/
def tableISet (nbits w : Nat) : ISet := if tableWordIsT32 nbits (BitVec.ofNat 32 w) then .t32 else .a32

/-- The instruction that the decoder reads from a table word. -/
def decodeTableWord (nbits w : Nat) : Option Instr :=
  match decode (tableISet nbits w) (tableBytes nbits w) with
  | .ok (i, _) => some i
  | .error _ => none

end Sys2Proof
end

