-- ==== Sys2Proof/Machine/Fetch.lean ====
section
/-! DEFINITION. Fetching and decoding the next instruction (D12, R65, R88), and placing one in memory. -/

namespace Sys2Proof.Machine

/-- What a fetch answers: an instruction of the table, bytes of no row, or a fault. -/
inductive Fetched where
  | instr (i : Instr)
  | outside
  | fault (f : Fault)
deriving DecidableEq, Repr

/-- How many bytes the instruction at `pc` has: 4 in A32; in T32 by its first halfword (R88). None where the first
halfword has no value. -/
def State.fetchSize (s : State) : Option Nat :=
  match s.iset with
  | .a32 => some 4
  | .t32 =>
    match Memory.readBytes s.mem s.pc 2 with
    | some [b0, b1] => some (if isWide (halfOfBytes b0 b1) then 4 else 2)
    | _ => none

/-- The fetch of `n` bytes at `pc` is permitted (R65): the first access at use 4 of the step; the second halfword of a
32-bit T32 instruction is an access of its own at use 5. How many accesses a fetch makes the spec does not say: an A32 word
is one, from `pc`, and so is a halfword, also where its later bytes lie in another region (DESIGN CHOICE, log 24). -/
def State.fetchPermitted (s : State) (n : Nat) : Bool :=
  s.permitFetch 4 s.pc && (s.iset == .a32 || n ≤ 2 || s.permitFetch 5 (s.pc + 2#32))

/-- The instruction of `bs`; bytes of no row are an instruction outside the spec. -/
def State.decodeFetched (s : State) (bs : List Byte) : Fetched :=
  match decode s.iset bs with
  | .ok (i, _) => .instr i
  | .error _ => .outside

/-- Fetch and decode the instruction at `pc`. Both halfwords are fetched before anything else is asked of the instruction:
R123 does not order a fetch fault against Undefined (DESIGN CHOICE, log 24). The bytes are those of memory as every store
before has left it: R75 has no rule for when a fetch sees a store, and D25 allows program order as a named assumption
(DESIGN CHOICE, log 41). They are those of memory whatever type the tables give it: a fetch from Device memory with M set is
not in the spec (DESIGN CHOICE, log 24). All are read in one step (N13; DESIGN CHOICE, log 25). -/
def State.fetch (s : State) : Fetched :=
  if !s.permitFetch 4 s.pc then .fault .executeNever
  else match s.fetchSize with
    | none => .fault .unwrittenMemory
    | some n =>
      if !s.fetchPermitted n then .fault .executeNever
      else match Memory.readBytes s.mem s.pc n with
        | none => .fault .unwrittenMemory
        | some bs => s.decodeFetched bs

/-- The state with the bytes of a table word at `pc`, in the instruction set the word belongs to, at the PE's
turn (log 20, log 31). -/
def placeWord (s : State) (nbits w : Nat) : State :=
  { s with
    iset := tableISet nbits w
    mem := Memory.writeBytes s.mem s.pc (tableBytes nbits w)
    turns := [] }

end Sys2Proof.Machine
end

