-- ==== Sys2Proof/Machine/Step.lean ====
section
/-! DEFINITION. One step of the machine: the turn of the machine around HSCTLR, or the PE's next instruction. -/

namespace Sys2Proof.Machine

/-- The outcome of a fetch, run. -/
def State.runFetched (s : State) : Fetched → Host.Outcome State Fault Refusal
  | .instr i => exec i s
  | .outside => s.execOutsideScope
  | .fault f => .fault f

/-- Fetch an instruction and run it. -/
def State.runInstruction (s : State) : Host.Outcome State Fault Refusal := s.runFetched s.fetch

/-- One step. A configuration that R3 forbids is refused (R12). Each step has fresh free values (log 2); the first turn of
the list says whose step it is (log 27). -/
def step (s : State) : Host.Outcome State Fault Refusal :=
  if s.cfg.legal then
    match s.turns with
    | [] => s.tick.runInstruction
    | .instruction :: rest => ({ s.tick with turns := rest } : State).runInstruction
    | .around e :: rest => ({ s.tick with turns := rest } : State).runEvent e
  else .refused .illegalConfiguration

/-- The state whose next step fetches and runs the instruction of a table word. -/
def State.withFetchWord (s : State) (nbits w : Nat) : State := placeWord s nbits w

end Sys2Proof.Machine
end

