-- ==== Sys2Proof/Safety.lean ====
section
/-! DEFINITION. The words of the claims: the invariant of the machine, and the frames, what a step leaves alone. -/

namespace Sys2Proof.Machine

/-- The invariant that every step keeps. Memory is in canonical form; the configuration obeys R3; the bits of HSCTLR that
are not known are bits that can be written, pending and stale ones are controls, stale ones those that a TLB may cache
(R73); without FEAT_SSBS there is no PSTATE.SSBS (R126); the instruction after an IT is in its block (R103). -/
structure State.Inv (s : State) : Prop where
  memory : Memory.wf s.mem = true
  config : s.cfg.legal = true
  unknown : s.hsctlr.unknown &&& ~~~writeMask s.cfg = 0#32
  pending : s.hsctlr.pending &&& ~~~ctrlMask s.cfg = 0#32
  stale : s.hsctlr.tlbStale &&& ~~~(ctrlMask s.cfg &&& tlbMask) = 0#32
  noSsbs : s.cfg.featSSBS = false → s.ssbs = false
  afterIt : s.afterIt = true → s.inItBlock = true

/-- No byte of memory differs. -/
def SameMemory (s t : State) : Prop := ∀ a : Word, t.readByte a = s.readByte a

/-- No context input, exception record, process state of entry to Hyp mode, or field of the model's own differs: the part
of the state that no MRC, MCR, SETEND, IT or CP15 barrier writes when it completes. -/
structure SameContext (s t : State) : Prop where
  cfg : t.cfg = s.cfg
  el : t.el = s.el
  iset : t.iset = s.iset
  ssbs : t.ssbs = s.ssbs
  scrNS : t.scrNS = s.scrNS
  hstrT1 : t.hstrT1 = s.hstrT1
  hstrEl2T1 : t.hstrEl2T1 = s.hstrEl2T1
  el2Enabled : t.el2Enabled = s.el2Enabled
  el2UsingAArch32 : t.el2UsingAArch32 = s.el2UsingAArch32
  sctlrSED : t.sctlrSED = s.sctlrSED
  sctlrITD : t.sctlrITD = s.sctlrITD
  sctlrCP15BEN : t.sctlrCP15BEN = s.sctlrCP15BEN
  hypTrapEc : t.hypTrapEc = s.hypTrapEc
  regsLeft : t.regsLeft = s.regsLeft
  regions : t.regions = s.regions
  turns : t.turns = s.turns
  draws : t.draws = s.draws

/-- No context input, and no field of the model's own, differs: what an exception taken to Hyp mode leaves alone too. -/
structure SameInputs (s t : State) : Prop where
  cfg : t.cfg = s.cfg
  scrNS : t.scrNS = s.scrNS
  hstrT1 : t.hstrT1 = s.hstrT1
  hstrEl2T1 : t.hstrEl2T1 = s.hstrEl2T1
  el2Enabled : t.el2Enabled = s.el2Enabled
  el2UsingAArch32 : t.el2UsingAArch32 = s.el2UsingAArch32
  sctlrSED : t.sctlrSED = s.sctlrSED
  sctlrITD : t.sctlrITD = s.sctlrITD
  sctlrCP15BEN : t.sctlrCP15BEN = s.sctlrCP15BEN
  regions : t.regions = s.regions
  turns : t.turns = s.turns
  draws : t.draws = s.draws

/-- Every general register is the same. -/
def SameRegs (s t : State) : Prop := ∀ r : BitVec 4, t.readReg r = s.readReg r

/-- Every general register but `t0` is the same. -/
def SameRegsBut (t0 : BitVec 4) (s t : State) : Prop := ∀ r : BitVec 4, r ≠ t0 → t.readReg r = s.readReg r

/-- The process state of an entry to Hyp mode (R124, R125, R126) that finds the register `h`: at EL2, the instruction set
state by TE, PSTATE.E by EE, PSTATE.SSBS by DSSBS where FEAT_SSBS is implemented. -/
structure EntersHypMode (s : State) (h : Hsctlr) (t : State) : Prop where
  el : t.el = .el2
  iset : t.iset = if h.eff s.cfg (s.draw 3) .te then .t32 else .a32
  pstateE : t.pstateE = h.eff s.cfg (s.draw 3) .ee
  ssbs : s.cfg.featSSBS = true → t.ssbs = h.eff s.cfg (s.draw 3) .dssbs
  noSsbs : s.cfg.featSSBS = false → t.ssbs = s.ssbs

/-- `S` and what is UNKNOWN of it are the same. -/
def SameS (s t : State) : Prop := t.hsctlr.stored = s.hsctlr.stored ∧ t.hsctlr.unknown = s.hsctlr.unknown

/-- What an instruction other than IT does to the IT state: nothing in A32 and outside an IT block; a T32 instruction in a
block moves it on (log 15, log 34). -/
def ItMovesOn (i : Instr) (s t : State) : Prop :=
  (i.iset = .a32 ∨ s.inItBlock = false → t.itState = s.itState) ∧
    (i.iset = .t32 → s.inItBlock = true → t.itState = itAdvance s.itState)

/-- The IT state and its mark of the next instruction. -/
def SameIt (s t : State) : Prop := t.itState = s.itState ∧ t.afterIt = s.afterIt

/-- `i` is an MRC of HSCTLR into `R[rt]` of a form that R84 admits, in the state `s`: condition "always", t in 0 to 14 in
A32, t in 0 to 12 or 14 in T32 outside an IT block. -/
def AdmittedMrc (s : State) (i : Instr) (rt : BitVec 4) : Prop :=
  (i = .mrcA32 0b1110#4 rt ∧ rt ≠ 15#4) ∨
    (i = .mrcT32 rt ∧ rt ≠ 13#4 ∧ rt ≠ 15#4 ∧ s.inItBlock = false ∧ s.afterIt = false)

/-- `i` is an MCR of `R[rt]` to HSCTLR of a form that R84 admits, in the state `s`. -/
def AdmittedMcr (s : State) (i : Instr) (rt : BitVec 4) : Prop :=
  (i = .mcrA32 0b1110#4 rt ∧ rt ≠ 15#4) ∨
    (i = .mcrT32 rt ∧ rt ≠ 13#4 ∧ rt ≠ 15#4 ∧ s.inItBlock = false ∧ s.afterIt = false)

/-- R103 does not apply to `i` in the state `s`: it is an A32 instruction, or it is not directly after an IT, or the IT
restrictions are not in force. -/
def NotUnderIt (s : State) (i : Instr) : Prop :=
  i.iset = .a32 ∨ s.afterIt = false ∨ (s.atHyp = true ∧ s.eff 0 .itd = false) ∨
    (s.atHyp = false ∧ s.sctlrITD = false)

/-- `i` is a SETEND to the endianness `big`. -/
def IsSetend (i : Instr) (big : Bool) : Prop := i = .setendA32 big ∨ i = .setendT16 big

/-- `i` is a CP15DMB or CP15DSB. -/
def IsDmbOrDsb (i : Instr) : Prop :=
  (∃ cond rt, i = .cp15dmbA32 cond rt) ∨ (∃ rt, i = .cp15dmbT32 rt) ∨
    (∃ cond rt, i = .cp15dsbA32 cond rt) ∨ (∃ rt, i = .cp15dsbT32 rt)

/-- `i` is a CP15ISB. -/
def IsIsb (i : Instr) : Prop := (∃ cond rt, i = .cp15isbA32 cond rt) ∨ (∃ rt, i = .cp15isbT32 rt)

/-- `i` is an instruction of one of the six ITD classes. -/
def IsClassInstr (i : Instr) : Prop :=
  (∃ hw1 hw2, i = .itdK1 hw1 hw2) ∨ (∃ hw1, i = .itdK2 hw1) ∨ (∃ hw1, i = .itdK3 hw1) ∨ (∃ hw1, i = .itdK4 hw1) ∨
    (∃ hw1, i = .itdK5 hw1) ∨ (∃ hw1, i = .itdK6 hw1)

/-- `i` is an instruction of a class none of whose instructions accesses memory: K3, K5, K6. -/
def AccessesNoMemory (i : Instr) : Prop :=
  (∃ hw1, i = .itdK3 hw1) ∨ (∃ hw1, i = .itdK5 hw1) ∨ (∃ hw1, i = .itdK6 hw1)

/-- The first halfword of an instruction, from its encoding (R83, R85). -/
def firstHalfOf (i : Instr) : Half :=
  match encode i with
  | b0 :: b1 :: _ => halfOfBytes b0 b1
  | _ => 0#16

/-- The length of an instruction in bytes (R88, D11). -/
def lengthOf (i : Instr) : Word := BitVec.ofNat 32 (encode i).length

/-- The bit of a field is settled in `S`: not UNKNOWN, not pending, not stale. -/
def Hsctlr.settled (h : Hsctlr) (f : Field) : Prop :=
  (h.unknown ||| h.pending ||| h.tlbStale).getLsbD f.bit = false

end Sys2Proof.Machine
end

