-- ==== Sys2Proof/Certificates/Slice0/Obligations.lean ====
section
/-! DEFINITION. The statements about the model, each from a rule of the spec; OBLIGATIONS.json lists them. A draw index in
a statement (`s.eff 1 .sed`) says which use of the field in the step is meant; for a settled field every index gives the
same value. `s.atHyp` is EL2 with FEAT_AA32EL2, where HSCTLR governs. -/

open Sys2Proof Sys2Proof.Machine

/-! ## Encoding (spec file 30) -/

/-- Words written out from the layouts of R82, R83 and R86 decode to the instructions they stand for (vectors E4, E7, E18,
E24, E26, E29, E34, E35). -/
def Obligations.SpecWordsDecode : Prop :=
  decode .a32 (bytesOfWord 0xEE91EF10#32) = .ok (.mrcA32 14#4 14#4, []) ∧
  decode .a32 (bytesOfWord 0xEE81CF10#32) = .ok (.mcrA32 14#4 12#4, []) ∧
  decode .t32 [0x81#8, 0xEE#8, 0x10#8, 0x1F#8] = .ok (.mcrT32 1#4, []) ∧
  decode .a32 (bytesOfWord 0xF1010200#32) = .ok (.setendA32 true, []) ∧
  decode .t32 [0x58#8, 0xB6#8] = .ok (.setendT16 true, []) ∧
  decode .t32 [0x0C#8, 0xBF#8] = .ok (.itT16 0#4 0xC#4, []) ∧
  decode .a32 (bytesOfWord 0xEE070FBA#32) = .ok (.cp15dmbA32 14#4 0#4, []) ∧
  decode .t32 [0x07#8, 0xEE#8, 0x95#8, 0x0F#8] = .ok (.cp15isbT32 0#4, [])

/-- Decoding the encoding of any well-formed instruction gives it back, and the bytes after it. -/
def Obligations.DecodeOfEncode : Prop :=
  ∀ (i : Instr) (rest : List Byte), i.wellFormed = true → decode i.iset (encode i ++ rest) = .ok (i, rest)

/-- Whatever decodes is well formed, belongs to the instruction set it was read in, and is made of exactly the bytes that
encode it: no bit of a decoded instruction is dropped. -/
def Obligations.EncodeOfDecode : Prop :=
  ∀ (is : ISet) (bs rest : List Byte) (i : Instr), decode is bs = .ok (i, rest) →
    i.wellFormed = true ∧ i.iset = is ∧ bs = encode i ++ rest

/-- R81: an A32 MRC or MCR (bits 27:24 and bit 4 of R82, a condition in bits 31:28) is an access to HSCTLR when, and only
when, its five selector fields have the values of R81; bit 20 tells MRC from MCR, bits 15:12 are Rt. -/
def Obligations.HsctlrAccessBySelectorFields : Prop :=
  ∀ w : Word, w.extractLsb' 24 4 = 0b1110#4 → w.getLsbD 4 = true → w.extractLsb' 28 4 ≠ 0b1111#4 →
    ((∃ cond rt, decodeA32 w = some (.mrcA32 cond rt) ∨ decodeA32 w = some (.mcrA32 cond rt)) ↔
      (w.extractLsb' 8 4 = 0b1111#4 ∧ w.extractLsb' 21 3 = 0b100#3 ∧ w.extractLsb' 16 4 = 0b0001#4 ∧
        w.extractLsb' 0 4 = 0b0000#4 ∧ w.extractLsb' 5 3 = 0b000#3)) ∧
    (∀ cond rt, decodeA32 w = some (.mrcA32 cond rt) →
      w.getLsbD 20 = true ∧ cond = w.extractLsb' 28 4 ∧ rt = w.extractLsb' 12 4) ∧
    (∀ cond rt, decodeA32 w = some (.mcrA32 cond rt) →
      w.getLsbD 20 = false ∧ cond = w.extractLsb' 28 4 ∧ rt = w.extractLsb' 12 4)

/-! ## The register (spec file 10) -/

/-- R15: every bit of HSCTLR is in exactly one of the five masks, in every configuration. -/
def Obligations.MasksPartitionTheRegister : Prop :=
  ∀ (c : Config) (n : Nat), n < 32 →
    ((ctrlMask c).getLsbD n = true ∧ (res1Mask c ||| res0Mask c ||| razwiMask c ||| raowiMask c).getLsbD n = false) ∨
    ((res1Mask c).getLsbD n = true ∧ (ctrlMask c ||| res0Mask c ||| razwiMask c ||| raowiMask c).getLsbD n = false) ∨
    ((res0Mask c).getLsbD n = true ∧ (ctrlMask c ||| res1Mask c ||| razwiMask c ||| raowiMask c).getLsbD n = false) ∨
    ((razwiMask c).getLsbD n = true ∧ (ctrlMask c ||| res1Mask c ||| res0Mask c ||| raowiMask c).getLsbD n = false) ∨
    ((raowiMask c).getLsbD n = true ∧ (ctrlMask c ||| res1Mask c ||| res0Mask c ||| razwiMask c).getLsbD n = false)

/-- R14: the bit of each field, and what kind of bit each bit of HSCTLR is: the six controls of every configuration, the
seven bits that are controls under a condition and what they are otherwise, and the reserved bits; no bit is of two kinds
or of none. -/
def Obligations.KindOfEachBit : Prop :=
  (Field.dssbs.bit = 31 ∧ Field.te.bit = 30 ∧ Field.ee.bit = 25 ∧ Field.wxn.bit = 19 ∧ Field.i.bit = 12 ∧
    Field.sed.bit = 8 ∧ Field.itd.bit = 7 ∧ Field.cp15ben.bit = 5 ∧ Field.lsmaoe.bit = 4 ∧ Field.ntlsmd.bit = 3 ∧
    Field.c.bit = 2 ∧ Field.a.bit = 1 ∧ Field.m.bit = 0) ∧
  ∀ c : Config,
    (∀ n, n < 32 → ((ctrlMask c).getLsbD n).toNat + ((res1Mask c).getLsbD n).toNat + ((res0Mask c).getLsbD n).toNat +
      ((razwiMask c).getLsbD n).toNat + ((raowiMask c).getLsbD n).toNat = 1) ∧
    (∀ n ∈ [30, 19, 12, 2, 1, 0], (ctrlMask c).getLsbD n = true) ∧
    (if c.featSSBS then (ctrlMask c).getLsbD 31 = true else (res0Mask c).getLsbD 31 = true) ∧
    (if c.featMixedEnd then (ctrlMask c).getLsbD 25 = true
      else if c.featBigEnd then (res1Mask c).getLsbD 25 = true else (res0Mask c).getLsbD 25 = true) ∧
    (if c.mixedEndEL2 then (ctrlMask c).getLsbD 8 = true else (res1Mask c).getLsbD 8 = true) ∧
    (if c.itdImplemented then (ctrlMask c).getLsbD 7 = true else (razwiMask c).getLsbD 7 = true) ∧
    (if c.cp15benImplemented then (ctrlMask c).getLsbD 5 = true else (raowiMask c).getLsbD 5 = true) ∧
    (∀ n ∈ [4, 3], if c.featLSMAOC then (ctrlMask c).getLsbD n = true else (res1Mask c).getLsbD n = true) ∧
    (∀ n ∈ [29, 28, 23, 22, 18, 16, 11], (res1Mask c).getLsbD n = true) ∧
    (∀ n ∈ [27, 26, 24, 21, 20, 17, 15, 14, 13, 10, 9, 6], (res0Mask c).getLsbD n = true)

/-- R34: the effective value of a settled control is its bit of `S`; of a field fixed to 1 (RES1 or RAO/WI) it is 1, of a
field fixed to 0 (RES0 or RAZ/WI) it is 0, whatever `S` holds and whichever draw and policy. A control that is not settled
(UNKNOWN since a reset, or pending, or stale) is a draw: either value under some draw (R37, D6, R144, R145). -/
def Obligations.EffectiveValueOfEachKind : Prop :=
  ∀ (c : Config) (h : Hsctlr) (d : Word) (f : Field),
    ((ctrlMask c).getLsbD f.bit = true → h.settled f → h.eff c d f = h.stored.getLsbD f.bit) ∧
    ((ctrlMask c).getLsbD f.bit = true → ¬h.settled f → ∀ b : Bool, ∃ d' : Word, h.eff c d' f = b) ∧
    ((res1Mask c ||| raowiMask c).getLsbD f.bit = true → h.eff c d f = true) ∧
    ((res0Mask c ||| razwiMask c).getLsbD f.bit = true → h.eff c d f = false)

/-- R35 and R36 bit by bit: what a read returns of a value of `S`, and what a write leaves of it. A control reads and
writes its bit; a reserved bit is fixed or stored by the policy; RAZ/WI and RAO/WI bits read 0 and 1 and never change. -/
def Obligations.ReadAndWriteByKindOfBit : Prop :=
  ∀ (c : Config) (s v : Word) (n : Nat), n < 32 →
    ((ctrlMask c).getLsbD n = true →
      (readMasked c s).getLsbD n = s.getLsbD n ∧ (writeMasked c s v).getLsbD n = v.getLsbD n) ∧
    ((res1Mask c ||| res0Mask c).getLsbD n = true → c.resPolicy = .stored →
      (readMasked c s).getLsbD n = s.getLsbD n ∧ (writeMasked c s v).getLsbD n = v.getLsbD n) ∧
    ((res1Mask c).getLsbD n = true → c.resPolicy = .hardwired →
      (readMasked c s).getLsbD n = true ∧ (writeMasked c s v).getLsbD n = s.getLsbD n) ∧
    ((res0Mask c).getLsbD n = true → c.resPolicy = .hardwired →
      (readMasked c s).getLsbD n = false ∧ (writeMasked c s v).getLsbD n = s.getLsbD n) ∧
    ((razwiMask c).getLsbD n = true →
      (readMasked c s).getLsbD n = false ∧ (writeMasked c s v).getLsbD n = s.getLsbD n) ∧
    ((raowiMask c).getLsbD n = true →
      (readMasked c s).getLsbD n = true ∧ (writeMasked c s v).getLsbD n = s.getLsbD n)

/-- Laws 2, 3, 4 and 6 of the test vectors, part 3: reading after writing under `hardwired`, writing back what is read,
writing twice, and the value of software that writes RES0 as 0 and RES1 as 1 reading back under both policies. -/
def Obligations.ReadWriteLaws : Prop :=
  ∀ (c : Config) (s v : Word),
    (c.resPolicy = .hardwired →
      readMasked c (writeMasked c s v) = (v &&& ctrlMask c) ||| res1Mask c ||| raowiMask c) ∧
    writeMasked c s (readMasked c s) = s ∧
    writeMasked c (writeMasked c s v) v = writeMasked c s v ∧
    (v &&& (res0Mask c ||| razwiMask c) = 0#32 →
      v &&& (res1Mask c ||| raowiMask c) = res1Mask c ||| raowiMask c → readMasked c (writeMasked c s v) = v)

/-- R37: the Warm reset value of each control field: the parameter, the fixed value when the highest level is EL2, or
UNKNOWN. -/
def Obligations.WarmResetValueOfEachField : Prop :=
  ∀ c : Config,
    let h := Hsctlr.reset c
    let isControl := fun f : Field => (ctrlMask c).getLsbD f.bit = true
    let isUnknown := fun f : Field => h.unknown.getLsbD f.bit = true
    let known := fun (f : Field) (b : Bool) => h.unknown.getLsbD f.bit = false ∧ h.stored.getLsbD f.bit = b
    (isControl .dssbs → known .dssbs c.resetDSSBS) ∧
    (isControl .te → known .te c.resetTE) ∧
    (isControl .ee → known .ee c.resetEE) ∧
    (∀ f ∈ [Field.wxn, .sed, .itd, .cp15ben, .a], isControl f → isUnknown f) ∧
    (∀ f ∈ [Field.i, .c, .m], isControl f →
      (c.highestEL = .el2 → known f false) ∧ (c.highestEL ≠ .el2 → isUnknown f)) ∧
    (∀ f ∈ [Field.lsmaoe, .ntlsmd], isControl f →
      (c.highestEL = .el2 → known f true) ∧ (c.highestEL ≠ .el2 → isUnknown f))

/-- R38: under `stored` every reserved bit of `S` is UNKNOWN after a reset and stays so until a write, which makes it known
with the value written; under `hardwired` it reads its fixed value whatever the register holds. -/
def Obligations.ReservedBitsByPolicy : Prop :=
  ∀ (c : Config) (n : Nat), (res0Mask c ||| res1Mask c).getLsbD n = true →
    (c.resPolicy = .stored →
      (Hsctlr.reset c).unknown.getLsbD n = true ∧
      ∀ (h : Hsctlr) (v : Word), (h.write c v).unknown.getLsbD n = false ∧
        (h.write c v).stored.getLsbD n = v.getLsbD n) ∧
    (c.resPolicy = .hardwired →
      ∀ (h : Hsctlr) (d : Word), (readMasked c (h.value d)).getLsbD n = (res1Mask c).getLsbD n)

/-- The read value after a Warm reset with HighestEL = EL2, every optional control implemented and hardwired reserved bits
(the derived block under R37). -/
def Obligations.FirstReadAfterReset : Prop :=
  ∀ (c : Config) (u : Word), c.highestEL = .el2 → c.resPolicy = .hardwired → c.featSSBS = true →
    c.featMixedEnd = true → c.mixedEndEL2 = true → c.itdImplemented = true → c.cp15benImplemented = true →
    c.featLSMAOC = true →
    readMasked c ((Hsctlr.reset c).value u) =
      0x30C50818#32 ||| maskIf c.resetDSSBS 0x80000000#32 ||| maskIf c.resetTE 0x40000000#32
        ||| maskIf c.resetEE 0x02000000#32 ||| (u &&& 0x000801A2#32)

/-- R144: after a write and a context synchronisation event a control field has the value written, for the ten fields
that no TLB may hold (the stale bits being among those of R73, as the invariant says). -/
def Obligations.SynchronisedFieldIsTheWrittenOne : Prop :=
  ∀ (c : Config) (h : Hsctlr) (v d : Word) (f : Field),
    h.tlbStale &&& ~~~(ctrlMask c &&& tlbMask) = 0#32 → (ctrlMask c).getLsbD f.bit = true →
    f ≠ .wxn → f ≠ .lsmaoe → f ≠ .ntlsmd →
    (h.write c v).synchronise.eff c d f = v.getLsbD f.bit

/-- R145: WXN, LSMAOE and nTLSMD have the value written once the write is synchronised and the TLB invalidated. -/
def Obligations.InvalidatedFieldIsTheWrittenOne : Prop :=
  ∀ (c : Config) (h : Hsctlr) (v d : Word) (f : Field), (ctrlMask c).getLsbD f.bit = true →
    (h.write c v).synchronise.invalidateTlb.eff c d f = v.getLsbD f.bit

/-- R144, R145: until then a changed field is a draw: either value under some draw, before the write is synchronised and,
for WXN, LSMAOE and nTLSMD, after that until the TLB is invalidated; an invalidation alone settles nothing. A settled field
that the write does not change keeps its value under every draw. -/
def Obligations.ChangedFieldIsADraw : Prop :=
  ∀ (c : Config) (h : Hsctlr) (v : Word) (f : Field), (ctrlMask c).getLsbD f.bit = true → h.settled f →
    (v.getLsbD f.bit ≠ h.stored.getLsbD f.bit → ∀ b : Bool,
      (∃ d, (h.write c v).eff c d f = b) ∧ (∃ d, (h.write c v).invalidateTlb.eff c d f = b) ∧
      (f = .wxn ∨ f = .lsmaoe ∨ f = .ntlsmd → ∃ d, (h.write c v).synchronise.eff c d f = b)) ∧
    (v.getLsbD f.bit = h.stored.getLsbD f.bit → ∀ d, (h.write c v).eff c d f = h.stored.getLsbD f.bit)

/-! ## Access to HSCTLR (spec file 40) -/

/-- R90: the verdict of the access check, in the order of its tests. -/
def Obligations.AccessCheckVerdicts : Prop :=
  ∀ s : State,
    (s.cfg.featAA32EL2 = false → s.accessCheck = .undefined) ∧
    (s.cfg.featAA32EL2 = true →
      (s.el = .el0 → s.accessCheck = .undefined) ∧
      (s.el = .el1 →
        ((s.el2Enabled = true ∧ s.cfg.featAA64EL2 = true ∧ s.el2UsingAArch32 = false ∧ s.hstrEl2T1 = true) →
          s.accessCheck = .trapToEL2AArch64) ∧
        ((s.el2Enabled = true ∧ s.el2UsingAArch32 = true ∧ s.hstrT1 = true) → s.accessCheck = .trapToHypAArch32) ∧
        (¬(s.el2Enabled = true ∧ s.cfg.featAA64EL2 = true ∧ s.el2UsingAArch32 = false ∧ s.hstrEl2T1 = true) →
          ¬(s.el2Enabled = true ∧ s.el2UsingAArch32 = true ∧ s.hstrT1 = true) → s.accessCheck = .undefined)) ∧
      (s.el = .el2 → s.accessCheck = .allow) ∧
      (s.el = .el3 →
        (s.scrNS = false → s.accessCheck = .undefined) ∧ (s.scrNS = true → s.accessCheck = .allow)))

/-- R11: without FEAT_AA32EL2 every direct access to HSCTLR is UNDEFINED, at every level. -/
def Obligations.AbsentRegisterIsUndefined : Prop :=
  ∀ (s : State) (i : Instr) (rt : BitVec 4), s.cfg.featAA32EL2 = false → (AdmittedMrc s i rt ∨ AdmittedMcr s i rt) →
    exec i s = .fault .undefined

/-- Without FEAT_AA32EL2 HSCTLR governs nothing (the last column of R3; what stands in its place is the model's, log 39):
the gates are the inputs for SCTLR at every level, every fetch is permitted, no check stops an access, no order, byte order
or cacheability follows from it, and there is no entry to Hyp mode. -/
def Obligations.AbsentRegisterGovernsNothing : Prop :=
  ∀ s : State, s.cfg.featAA32EL2 = false →
    s.setendDisabled = s.sctlrSED ∧ s.barriersEnabled = s.sctlrCP15BEN ∧ (∀ k, s.itDisabled k = s.sctlrITD) ∧
    (∀ k a, s.permitFetch k a = true) ∧ (∀ k a, s.accessFault k a = none) ∧
    (∀ k, s.multipleOrder k = .notGoverned ∧ s.fetchTypeDisabled k = none) ∧
    (∀ k access, s.cacheability k access = .notGoverned) ∧ (∀ k walk, s.walkBigEndian k walk = none) ∧
    s.runEvent .exceptionToHyp = .refused .noHypMode

/-- R91: an allowed MRC completes: `R[t]` takes what R35 reads of `S` (each UNKNOWN bit a draw), and nothing else changes
but the pc. -/
def Obligations.MrcReadsHsctlr : Prop :=
  ∀ (s : State) (i : Instr) (rt : BitVec 4), AdmittedMrc s i rt → s.accessCheck = .allow →
    ∃ t, exec i s = .next t ∧
      (let v := (s.hsctlr.stored &&& ~~~s.hsctlr.unknown) ||| (s.draw 1 &&& s.hsctlr.unknown)
       t.readReg rt = some (match s.cfg.resPolicy with
        | .hardwired => (v &&& ctrlMask s.cfg) ||| res1Mask s.cfg ||| raowiMask s.cfg
        | .stored => (v &&& (ctrlMask s.cfg ||| res0Mask s.cfg ||| res1Mask s.cfg)) ||| raowiMask s.cfg)) ∧
      SameRegsBut rt s t ∧ t.hsctlr = s.hsctlr ∧ t.pstateE = s.pstateE ∧ t.itState = s.itState ∧
      t.afterIt = false ∧ SameContext s t ∧ SameMemory s t ∧ t.pc = s.pc + 4#32

/-- R92: an allowed MCR completes: `S` takes what R36 writes of `R[t]`, the bits written are known from now on, the controls
it may have changed are pending until synchronised (R144), WXN, LSMAOE and nTLSMD among them stale until the TLB is
invalidated (R145; the two marks are the model's, log 10), and nothing else changes but the pc. -/
def Obligations.McrWritesHsctlr : Prop :=
  ∀ (s : State) (i : Instr) (rt : BitVec 4), AdmittedMcr s i rt → s.accessCheck = .allow →
    ∃ t v, exec i s = .next t ∧ s.readReg rt = some v ∧
      (let w := match s.cfg.resPolicy with
        | .hardwired => ctrlMask s.cfg
        | .stored => ctrlMask s.cfg ||| res0Mask s.cfg ||| res1Mask s.cfg
       let changed := ((s.hsctlr.stored ^^^ v) ||| s.hsctlr.unknown) &&& ctrlMask s.cfg
       t.hsctlr =
        { stored := (s.hsctlr.stored &&& ~~~w) ||| (v &&& w)
          unknown := s.hsctlr.unknown &&& ~~~w
          pending := s.hsctlr.pending ||| changed
          tlbStale := s.hsctlr.tlbStale ||| (changed &&& 0x00080018#32) }) ∧
      SameRegs s t ∧ t.pstateE = s.pstateE ∧ t.itState = s.itState ∧ t.afterIt = false ∧
      SameContext s t ∧ SameMemory s t ∧ t.pc = s.pc + 4#32

/-- R91, R92 with R120 and R122: where the verdict is not Allow, an admitted MRC or MCR has the outcome of the verdict, and
a Hyp Trap writes neither `R[t]` (the registers of the mode left stand in `regsLeft`; what Hyp mode sees as its registers
is free, log 8) nor `S` nor memory. That the trap is taken is the model's choice (log 7). -/
def Obligations.RaisedAccessHasNoEffect : Prop :=
  ∀ (s : State) (i : Instr) (rt : BitVec 4), (AdmittedMrc s i rt ∨ AdmittedMcr s i rt) →
    (s.accessCheck = .undefined → exec i s = .fault .undefined) ∧
    (s.accessCheck = .trapToEL2AArch64 → exec i s = .fault (.aarch32SystemAccessTrap .el2 0x03)) ∧
    (s.accessCheck = .trapToHypAArch32 →
      ∃ t, exec i s = .next t ∧ t.regsLeft = some s.regs ∧ t.hsctlr.stored = s.hsctlr.stored ∧
        t.hsctlr.unknown = s.hsctlr.unknown ∧ SameInputs s t ∧ SameMemory s t)

/-- R93, which the spec marks as its own choice (D9): an MRC that follows an MCR, both allowed and with no other write of
`S` between, reads the value written, through `ReadHSCTLR`, whatever was UNKNOWN before and whatever is pending. `u` is any
state in which `S` and the configuration are what the MCR left. The unknown bits are bits a write reaches, as the invariant
says. -/
def Obligations.MrcAfterMcrReadsTheValueWritten : Prop :=
  ∀ (s s1 u : State) (i j : Instr) (rt ru : BitVec 4) (v : Word),
    s.hsctlr.unknown &&& ~~~writeMask s.cfg = 0#32 →
    AdmittedMcr s i rt → s.accessCheck = .allow → s.readReg rt = some v → exec i s = .next s1 →
    u.cfg = s1.cfg → u.hsctlr.stored = s1.hsctlr.stored → u.hsctlr.unknown = s1.hsctlr.unknown →
    AdmittedMrc u j ru → u.accessCheck = .allow →
    ∃ t, exec j u = .next t ∧ t.readReg ru = some (readMasked s.cfg (writeMasked s.cfg s.hsctlr.stored v))

/-- R84: every form of MRC and MCR that R84 does not admit is refused, where R103 does not make it UNDEFINED first; an
admitted form never is. -/
def Obligations.OtherFormsAreRefused : Prop :=
  ∀ (s : State) (cond rt : BitVec 4),
    ((cond ≠ 0b1110#4 ∨ rt = 15#4) →
      (∃ r, exec (.mrcA32 cond rt) s = .refused r) ∧ (∃ r, exec (.mcrA32 cond rt) s = .refused r)) ∧
    ((rt = 13#4 ∨ rt = 15#4 ∨ s.inItBlock = true) → NotUnderIt s (.mrcT32 rt) →
      (∃ r, exec (.mrcT32 rt) s = .refused r) ∧ (∃ r, exec (.mcrT32 rt) s = .refused r)) ∧
    (∀ i r, (AdmittedMrc s i rt ∨ AdmittedMcr s i rt) → exec i s ≠ .refused r)

/-- R106: an MCR inside an IT block at EL2 that changes ITD from 0 to 1 is refused. -/
def Obligations.SettingItdInItBlockIsRefused : Prop :=
  ∀ (s : State) (rt : BitVec 4) (v : Word), NotUnderIt s (.mcrT32 rt) → s.inItBlock = true → s.atHyp = true →
    s.cfg.itdImplemented = true → rt ≠ 13#4 → s.readReg rt = some v → v.getLsbD 7 = true →
    s.hsctlr.stored.getLsbD 7 = false → exec (.mcrT32 rt) s = .refused .itdSetInItBlock

/-! ## Taking an exception to Hyp mode (spec file 60) -/

/-- R121: at EL1 with EL2 enabled and using AArch32 and HSTR.T1 set, an MRC or MCR takes a Hyp Trap: an exception taken to
Hyp mode carrying the number 0x03. The process state is that of R124, R125 and R126. -/
def Obligations.HypTrapEntersHypMode : Prop :=
  ∀ (s : State) (i : Instr) (rt : BitVec 4), (AdmittedMrc s i rt ∨ AdmittedMcr s i rt) → s.el = .el1 →
    s.cfg.featAA32EL2 = true → s.el2Enabled = true → s.el2UsingAArch32 = true → s.hstrT1 = true →
    ∃ t, exec i s = .next t ∧ t.hypTrapEc = some 0x03 ∧ t.el = .el2 ∧
      t.iset = (if s.eff 3 .te then .t32 else .a32) ∧ t.pstateE = s.eff 3 .ee ∧
      (s.cfg.featSSBS = true → t.ssbs = s.eff 3 .dssbs) ∧ (s.cfg.featSSBS = false → t.ssbs = s.ssbs)

/-- R124, R125, R126: the process state after every exception taken to Hyp mode but the Hyp Trap, of which
HypTrapEntersHypMode speaks: one that the machine around takes (the event is the model's, log 27), one that ends any other
effect of it, and one in which an instruction outside the spec ends (an SVC, HVC or UDF, in ITD_K1 to ITD_K6 or of no row),
where the effect says so or goes up to EL2 from EL0 or EL1 (log 18, where ELUsingAArch32(EL2) is that before the effect).
`S` and the registers of the mode left are not written (log 8). That the entry leaves memory and the context inputs alone is
the model's choice (log 7): R127 does not say what else an entry does. A machine without a Hyp mode takes none (log 39). -/
def Obligations.EntryToHypModeSetsProcessState : Prop :=
  ∀ s : State,
    (s.cfg.featAA32EL2 = true → s.el2UsingAArch32 = true →
      (∃ t, s.runEvent .exceptionToHyp = .next t ∧ EntersHypMode s s.hsctlr t ∧ SameS s t ∧
        t.regsLeft = some s.regs ∧ SameInputs s t ∧ SameMemory s t) ∧
      (∀ o : Outside, (o.exceptionToHyp = true ∨ (o.el = .el2 ∧ (s.el = .el0 ∨ s.el = .el1))) →
        (∃ t, s.runEvent (.outside o) = .next t ∧ EntersHypMode s (outsideHsctlr o s.hsctlr) t ∧ SameS s t) ∧
        (∀ (admits : Access → Bool) (accesses : List Access) (t : State),
          s.outsideInstr admits ⟨accesses, o⟩ = .next t →
          EntersHypMode s (outsideHsctlr o s.hsctlr) t ∧ SameS s t))) ∧
    ((s.cfg.featAA32EL2 = false ∨ s.el2UsingAArch32 = false) → s.runEvent .exceptionToHyp = .refused .noHypMode)

/-- R122: at EL1 with EL2 enabled and using AArch64 and HSTR_EL2.T1 set, an MRC or MCR ends in the trap to EL2 that carries
0x03. -/
def Obligations.AArch64TrapEndsTheStep : Prop :=
  ∀ (s : State) (i : Instr) (rt : BitVec 4), (AdmittedMrc s i rt ∨ AdmittedMcr s i rt) → s.el = .el1 →
    s.cfg.featAA32EL2 = true → s.cfg.featAA64EL2 = true → s.el2Enabled = true → s.el2UsingAArch32 = false →
    s.hstrEl2T1 = true → exec i s = .fault (.aarch32SystemAccessTrap .el2 0x03)

/-- R129: an access from EL0 is never trapped: it is UNDEFINED whatever the trap bits are. -/
def Obligations.EL0IsNeverTrapped : Prop :=
  ∀ (s : State) (i : Instr) (rt : BitVec 4), (AdmittedMrc s i rt ∨ AdmittedMcr s i rt) → s.el = .el0 →
    exec i s = .fault .undefined

/-! ## Gated instructions (spec file 41) -/

/-- R100: SETEND at EL2 is UNDEFINED when Eff(SED) is 1, is not when it is 0, and is UNDEFINED in every state when
mixed-endian operation at EL2 is not supported. R103 does not apply: there it is UNDEFINED by ITD. -/
def Obligations.SetendIsGatedBySed : Prop :=
  ∀ (s : State) (i : Instr) (big : Bool), IsSetend i big → NotUnderIt s i → s.atHyp = true →
    (s.eff 1 .sed = true → exec i s = .fault .undefined) ∧
    (s.eff 1 .sed = false → ∃ t, exec i s = .next t) ∧
    (s.cfg.mixedEndEL2 = false → exec i s = .fault .undefined)

/-- SETEND completes where its gate allows it, at EL2 by SED (R100) and elsewhere by the input that stands for SCTLR (the
model's choice, log 26): PSTATE.E takes the endianness asked for (GK8, log 13; in an IT block whose condition is not "always"
only if it holds, log 16) and nothing else changes but the pc and, in T32 in an IT block, the IT state, which moves on
(log 15). The pc advanced by the length is the model's (PRESUMED, log 32), and so is that an A32 SETEND leaves the IT state
(DESIGN CHOICE, log 34). -/
def Obligations.SetendCompletes : Prop :=
  ∀ (s : State) (i : Instr) (big : Bool), IsSetend i big → NotUnderIt s i →
    (s.atHyp = true → s.eff 1 .sed = false) → (s.atHyp = false → s.sctlrSED = false) →
    ∃ t, exec i s = .next t ∧ (t.pstateE = big ∨
        (t.pstateE = s.pstateE ∧ i = .setendT16 big ∧ s.inItBlock = true ∧ s.itState.extractLsb' 4 4 ≠ 0b1110#4)) ∧
      SameRegs s t ∧ t.hsctlr = s.hsctlr ∧ ItMovesOn i s t ∧ t.afterIt = false ∧ SameContext s t ∧ SameMemory s t ∧
      t.pc = s.pc + lengthOf i

/-- R101, R102: an IT at EL2 that R103 does not make UNDEFINED (directly after another IT it is in class K2) is UNDEFINED
exactly when Eff(ITD) is 1 and hw1[3:0] is not 0b1000. -/
def Obligations.ItIsGatedByItd : Prop :=
  ∀ (s : State) (firstcond mask : BitVec 4), NotUnderIt s (.itT16 firstcond mask) → s.atHyp = true →
    (s.eff 1 .itd = true → mask ≠ 0b1000#4 → exec (.itT16 firstcond mask) s = .fault .undefined) ∧
    ((s.eff 1 .itd = false ∨ mask = 0b1000#4) → ∃ t, exec (.itT16 firstcond mask) s = .next t)

/-- An IT that its gate allows completes. Outside a block, and in a block with the condition "always", it opens its block
(layout GK15, log 15) and the next instruction is the one after an IT (R103); in a block it does that or, its condition
failing, only moves the IT state on (log 15, log 16). Nothing else changes but the pc. The last clause says how the IT state
moves on (log 15): its last instruction ends a block; before that bits 4:0 shift left by one and bits 7:5 stay. The pc
advanced by 2 is the model's (PRESUMED, log 32). -/
def Obligations.ItOpensItsBlock : Prop :=
  (∀ (s : State) (firstcond mask : BitVec 4), NotUnderIt s (.itT16 firstcond mask) →
    (mask = 0b1000#4 ∨ (s.atHyp = true ∧ s.eff 1 .itd = false) ∨ (s.atHyp = false ∧ s.sctlrITD = false)) →
    ∃ t, exec (.itT16 firstcond mask) s = .next t ∧
      (let opens := t.itState.extractLsb' 4 4 = firstcond ∧ t.itState.extractLsb' 0 4 = mask ∧ t.afterIt = true
       (s.inItBlock = false ∨ s.itState.extractLsb' 4 4 = 0b1110#4 → opens) ∧
        (opens ∨ (s.inItBlock = true ∧ t.itState = itAdvance s.itState ∧ t.afterIt = false))) ∧
      SameRegs s t ∧ t.hsctlr = s.hsctlr ∧ t.pstateE = s.pstateE ∧ SameContext s t ∧ SameMemory s t ∧
      t.pc = s.pc + 2#32) ∧
  (∀ it : BitVec 8, it &&& 0x0F#8 ≠ 0#8 →
    itAdvance it = if it &&& 0x07#8 = 0#8 then 0#8 else (it &&& 0xE0#8) ||| ((it <<< 1) &&& 0x1F#8))

/-- R103, R104: at EL2 with Eff(ITD) 1 the instruction after an IT is UNDEFINED when its first halfword is in one of the
six classes of R85, whatever the condition of the IT block, the registers and every other part of the state; by R105 the
report is of it or of the IT two bytes before it. -/
def Obligations.ClassInstructionAfterItIsUndefined : Prop :=
  ∀ (s : State) (i : Instr), i.wellFormed = true → i.iset = .t32 → inItdClass (firstHalfOf i) = true →
    s.afterIt = true → s.atHyp = true → s.eff 0 .itd = true →
    exec i s = .fault (.undefinedAfterIt .it16 s.pc) ∨
      exec i s = .fault (.undefinedAfterIt .it32half (s.pc - 2#32))

/-- The six patterns of R85, bit by bit, are the classes, and every T32 instruction of the table lies in one of them. -/
def Obligations.EveryT32RowIsInAClass : Prop :=
  (∀ h : Half, inItdClass h = true ↔
    ((h.getLsbD 15 = true ∧ h.getLsbD 14 = true) ∨
     (h.extractLsb' 12 4 = 0b1011#4) ∨ (h.extractLsb' 11 5 = 0b10100#5) ∨ (h.extractLsb' 11 5 = 0b01001#5) ∨
     (h.extractLsb' 12 4 = 0b0100#4 ∧ h.getLsbD 10 = true ∧ h.extractLsb' 3 4 = 0b1111#4) ∨
     (h.extractLsb' 10 6 = 0b010001#6 ∧ h.getLsbD 7 = true ∧ h.extractLsb' 0 3 = 0b111#3))) ∧
  (∀ i : Instr, i.wellFormed = true → i.iset = .t32 → inItdClass (firstHalfOf i) = true)

/-- R101: an instruction of an ITD class that R103 does not make UNDEFINED completes where no check of R67, R68 or R72 can
stop an access of it: outside Hyp mode, in a class whose instructions access no memory, and in K4 with the check of R67
off. What it does is outside the spec, but it writes neither `S` nor the configuration, and K3 to K6 store nothing
(log 18). With the checks in force OutsideAccessesAreChecked says what happens, to K1, K2 and K4. -/
def Obligations.ClassInstructionCompletes : Prop :=
  ∀ (s : State) (i : Instr), IsClassInstr i → NotUnderIt s i →
    (s.atHyp = false ∨ AccessesNoMemory i ∨ (∃ hw1, i = .itdK4 hw1 ∧ ∀ k, s.eff k .a = false)) →
    ∃ t, exec i s = .next t ∧ t.hsctlr.stored = s.hsctlr.stored ∧ t.hsctlr.unknown = s.hsctlr.unknown ∧
      t.cfg = s.cfg ∧ t.turns = s.turns ∧ t.hypTrapEc = s.hypTrapEc ∧ (s.cfg.featSSBS = false → t.ssbs = s.ssbs) ∧
      (t.afterIt = true → t.inItBlock = true) ∧
      ((AccessesNoMemory i ∨ ∃ hw1, i = .itdK4 hw1) → SameMemory s t)

/-- R107, R108, R109: CP15DMB, CP15DSB and CP15ISB at EL2 are UNDEFINED when Eff(CP15BEN) is 0 and are not when it is 1. R103
does not apply: there they are UNDEFINED by ITD. -/
def Obligations.BarriersAreGatedByCp15ben : Prop :=
  ∀ (s : State) (i : Instr), (IsDmbOrDsb i ∨ IsIsb i) → NotUnderIt s i → s.atHyp = true →
    (s.eff 1 .cp15ben = false → exec i s = .fault .undefined) ∧
    (s.eff 1 .cp15ben = true → ∃ t, exec i s = .next t)

/-- CP15DMB and CP15DSB that are enabled complete and, in one core that runs in order, change nothing but the pc and, in T32
in an IT block, the IT state, which moves on (log 14, log 15; at levels other than EL2 the gate is the model's input,
log 26). The pc advanced by 4 is the model's (PRESUMED, log 32), and so is that an A32 barrier leaves the IT state (DESIGN
CHOICE, log 34). -/
def Obligations.DmbAndDsbOnlyAdvance : Prop :=
  ∀ (s : State) (i : Instr), IsDmbOrDsb i → NotUnderIt s i →
    (s.atHyp = true → s.eff 1 .cp15ben = true) → (s.atHyp = false → s.sctlrCP15BEN = true) →
    ∃ t, exec i s = .next t ∧ t.hsctlr = s.hsctlr ∧ SameRegs s t ∧ t.pstateE = s.pstateE ∧ ItMovesOn i s t ∧
      t.afterIt = false ∧ SameContext s t ∧ SameMemory s t ∧ t.pc = s.pc + 4#32

/-- CP15ISB that is enabled and unconditional completes and is a context synchronisation event (R144, log 9): no write is
pending after it; `S`, its unknown and its stale bits and everything else but the pc are unchanged, and the IT state but in
T32 in an IT block, where it moves on (log 15). With a condition other than "always", its own or that of its IT block, the
synchronisation may be left out (log 16). The pc advanced by 4 is the model's (PRESUMED, log 32), and so is that an A32
CP15ISB leaves the IT state (DESIGN CHOICE, log 34). -/
def Obligations.IsbSynchronises : Prop :=
  ∀ (s : State) (i : Instr), IsIsb i → NotUnderIt s i →
    (s.atHyp = true → s.eff 1 .cp15ben = true) → (s.atHyp = false → s.sctlrCP15BEN = true) →
    ∃ t, exec i s = .next t ∧ (t.hsctlr = { s.hsctlr with pending := 0#32 } ∨ t.hsctlr = s.hsctlr) ∧
      ((∃ rt, i = .cp15isbA32 0b1110#4 rt ∨
          (i = .cp15isbT32 rt ∧ (s.inItBlock = false ∨ s.itState.extractLsb' 4 4 = 0b1110#4))) →
        t.hsctlr.pending = 0#32) ∧
      SameRegs s t ∧ t.pstateE = s.pstateE ∧ ItMovesOn i s t ∧ t.afterIt = false ∧ SameContext s t ∧
      SameMemory s t ∧ t.pc = s.pc + 4#32

/-! ## Memory (spec file 20) -/

/-- R67, R68: a data access at EL2 whose address is not a multiple of its element size (1, 2, 4 or 8 bytes), by an
instruction of any class when Eff(A) is 1 and by an exclusive or acquire/release whatever A is, ends in the Alignment fault
taken as a Data Abort, unless the trap of R72 applies too (R123 does not order the two). With Eff(A) 0 that one check is not
made of any other access; a misaligned one is not said to succeed (D24), and where no other check stops it the model refuses
it (log 25). -/
def Obligations.AlignmentCheckAtEL2 : Prop :=
  ∀ (s : State) (a : Access), s.atHyp = true →
    ((s.eff 0 .a = true ∨ (∃ status, a.cls = .exclusive status) ∨ a.cls = .ordered) →
      a.addr.toNat % elementSize a.size ≠ 0 → s.multipleTraps 0 a = false →
      s.runEvent (.access a) = .fault .dataAbortAlignment) ∧
    (s.eff 0 .a = false → (∀ status, a.cls ≠ .exclusive status) → a.cls ≠ .ordered →
      s.alignmentFails 0 a = false ∧
      (a.addr.toNat % elementSize a.size ≠ 0 → s.multipleTraps 0 a = false →
        s.runEvent (.access a) = .refused .misalignedAccess))

/-- R72: an access of a Load or Store Multiple at EL2 to memory marked Device-nGRE, Device-nGnRE or Device-nGnRnE ends in a
stage 1 Alignment fault when Eff(nTLSMD) is 0, whatever its alignment (unless the check of R67 fails too, which R123 does
not order). No access has that fault with Eff(nTLSMD) 1, to Device-GRE or Normal memory, or by another instruction. -/
def Obligations.DeviceMultipleIsTrapped : Prop :=
  ∀ (s : State) (a : Access), s.atHyp = true →
    (s.eff 0 .ntlsmd = false → a.cls = .multiple →
      ((s.stage1 a.addr).memType = .deviceNGRE ∨ (s.stage1 a.addr).memType = .deviceNGnRE ∨
        (s.stage1 a.addr).memType = .deviceNGnRnE) →
      s.runEvent (.access a) = .fault .stage1Alignment ∨
        (a.addr.toNat % elementSize a.size ≠ 0 ∧ s.eff 0 .a = true ∧
          s.runEvent (.access a) = .fault .dataAbortAlignment)) ∧
    ((s.eff 0 .ntlsmd = true ∨ (s.stage1 a.addr).memType = .deviceGRE ∨ (s.stage1 a.addr).memType = .normal ∨
        a.cls ≠ .multiple) →
      s.runEvent (.access a) ≠ .fault .stage1Alignment)

/-- R67, R68, R72, R110: the data accesses of an instruction outside the spec that is executed at EL2 (Load and Store
Multiple, exclusives and acquire/release among ITD_K1) meet the same checks. If none is stopped it completes, and stores
no byte outside its store accesses; if one is stopped under every draw it ends in one of the two faults, and it ends in no
other way. Where HSCTLR does not govern (R130, log 39) it always completes. Its accesses are, of the free ones of `o`, those
of a kind that it can make: in K1 and K2 any, in K4 ("LDR Rd, [PC, #imm]") plain loads of a word, in K3, K5 and K6 none
(log 18). -/
def Obligations.OutsideAccessesAreChecked : Prop :=
  (∀ (s : State) (admits : Access → Bool) (o : OutsideInstr), s.atHyp = true →
    let makes := fun a : Access => a ∈ o.accesses ∧ admits a = true
    let misaligned := fun a : Access => a.addr.toNat % elementSize a.size ≠ 0
    let always := fun a : Access => (∃ status, a.cls = .exclusive status) ∨ a.cls = .ordered
    let trapped := fun a : Access => a.cls = .multiple ∧
      ((s.stage1 a.addr).memType = .deviceNGRE ∨ (s.stage1 a.addr).memType = .deviceNGnRE ∨
        (s.stage1 a.addr).memType = .deviceNGnRnE)
    let run := s.outsideInstr admits o
    ((∀ k a, makes a → ¬(misaligned a ∧ (always a ∨ s.eff k .a = true)) ∧
        ¬(trapped a ∧ s.eff k .ntlsmd = false)) →
      ∃ t, run = .next t ∧ ∀ x : Word,
        (∀ a, makes a → (∃ r, a.op = .load r) ∨ elementSize a.size ≤ (x - a.addr).toNat) →
        t.readByte x = s.readByte x) ∧
    ((∃ a, makes a ∧ ((misaligned a ∧ (always a ∨ ∀ k, s.eff k .a = true)) ∨
        (trapped a ∧ ∀ k, s.eff k .ntlsmd = false))) →
      run = .fault .dataAbortAlignment ∨ run = .fault .stage1Alignment) ∧
    ((∃ t, run = .next t) ∨ run = .fault .dataAbortAlignment ∨ run = .fault .stage1Alignment)) ∧
  (∀ (s : State) (admits : Access → Bool) (o : OutsideInstr), s.atHyp = false →
    ∃ t, s.outsideInstr admits o = .next t) ∧
  (∀ (s : State) (hw1 : Half) (hw2 : Option Half),
    (NotUnderIt s (.itdK1 hw1 hw2) →
      exec (.itdK1 hw1 hw2) s = s.outsideInstr (fun _ => true) (Config.outsideScope s.draws)) ∧
    (NotUnderIt s (.itdK2 hw1) →
      exec (.itdK2 hw1) s = s.outsideInstr (fun _ => true) (Config.outsideScope s.draws)) ∧
    (NotUnderIt s (.itdK4 hw1) →
      exec (.itdK4 hw1) s = s.outsideInstr isLiteralLoad (Config.outsideScope s.draws)) ∧
    (∀ i, (i = .itdK3 hw1 ∨ i = .itdK5 hw1 ∨ i = .itdK6 hw1) → NotUnderIt s i →
      exec i s = s.outsideInstr (fun _ => false) (Config.outsideScope s.draws))) ∧
  (∀ a : Access, isLiteralLoad a = true ↔ a.cls = .plain ∧ (∃ r, a.op = .load r) ∧ a.size = .word)

/-- R65, R66: an instruction fetch at EL2 is permitted when the tables permit execution and WXN does not forbid it, that is
unless WXN and M are both 1 and the address is writable; with M 0 WXN changes nothing; at another level HSCTLR forbids none
(R130, log 39). A step whose fetch is forbidden stops, of a 32-bit T32 instruction also where only the second halfword's is
(the fault is not named by the spec, and the two accesses are the model's, log 24). -/
def Obligations.WritableIsExecuteNeverUnderWxn : Prop :=
  (∀ (s : State) (k : Nat) (a : Word),
    (s.atHyp = true →
      s.permitFetch k a = ((s.stage1 a).execute && !(s.eff k .wxn && s.eff k .m && (s.stage1 a).write)) ∧
      (s.eff k .m = false → s.permitFetch k a = (s.stage1 a).execute)) ∧
    (s.atHyp = false → s.permitFetch k a = true)) ∧
  (∀ s : State, s.cfg.legal = true → (s.turns = [] ∨ ∃ rest, s.turns = .instruction :: rest) →
    let s1 : State := { s with draws := s.draws + 1, turns := s.turns.tail }
    (s1.permitFetch 4 s.pc = false → step s = .fault .executeNever) ∧
    (∀ b0 b1 : Byte, s.iset = .t32 → s.readByte s.pc = some b0 → s.readByte (s.pc + 1#32) = some b1 →
      isWide (halfOfBytes b0 b1) = true → s1.permitFetch 5 (s.pc + 2#32) = false → step s = .fault .executeNever))

/-- R61 to R64: I decides the cacheability of EL2 fetches and, with M 0, their memory type; C that of EL2 data accesses and
of accesses to the EL2 tables; neither reaches the PL1&0 regime. -/
def Obligations.CacheabilityByIAndC : Prop :=
  ∀ (s : State) (k : Nat),
    (s.cfg.featAA32EL2 = true →
      s.cacheability k (.fetchFrom .el2) = (if s.eff k .i then .mayBeCached else .nonCacheable) ∧
      s.cacheability k (.dataFrom .el2) = (if s.eff k .c then .mayBeCached else .nonCacheable) ∧
      s.cacheability k .el2Tables = (if s.eff k .c then .mayBeCached else .nonCacheable) ∧
      (s.eff k .m = false →
        s.fetchTypeDisabled k = some (if s.eff k .i then .writeThrough else .nonCacheable))) ∧
    s.cacheability k .pl10Walk = .notGoverned ∧
    (∀ el, el = .el0 ∨ el = .el1 →
      s.cacheability k (.fetchFrom el) = .notGoverned ∧ s.cacheability k (.dataFrom el) = .notGoverned)

/-- R69: EL2 stage 1 and PL1&0 stage 2 walks read a table entry of two bytes little-endian when Eff(EE) is 0 and big-endian
when it is 1. (Two bytes show the order; the size of an entry is not in the spec. That the walk reads the bytes of memory as
every step before has left it is the model's choice, log 41.) -/
def Obligations.WalkByteOrderByEE : Prop :=
  ∀ (s : State) (k : Nat) (walk : Walk) (a : Word) (b0 b1 : Byte), s.cfg.featAA32EL2 = true →
    (walk = .el2Stage1 ∨ walk = .pl10Stage2) →
    s.readByte a = some b0 → s.readByte (a + 1#32) = some b1 →
    s.readTableEntry k walk a 2 =
      some (if s.eff k .ee then b0.toNat * 256 + b1.toNat else b1.toNat * 256 + b0.toNat)

/-- The order that PSTATE.E gives data accesses (R70, D17; which byte goes where, N13, and the store itself are the model's,
log 25): a word store to Normal memory, writable or not (log 23), writes the least significant byte of the register at the
lowest address when PSTATE.E is 0, at the highest when it is 1, and no byte outside the four. An exclusive store does that
or leaves memory alone, and gives its status register a free value (log 40). -/
def Obligations.StoreByteOrderByPstateE : Prop :=
  ∀ (s : State) (cls : AccessClass) (t0 : Fin 15) (a : Word), a.toNat % 4 = 0 → (s.stage1 a).memType = .normal →
    ∃ t, s.runEvent (.access ⟨cls, .store t0, .word, a⟩) = .next t ∧
      ((∀ n : Nat, n < 4 → t.readByte (a + BitVec.ofNat 32 n) =
          some (s.regs[t0].extractLsb' (8 * (if s.pstateE then 3 - n else n)) 8)) ∨
        ((∃ status, cls = .exclusive status) ∧ SameMemory s t)) ∧
      (∀ b : Word, (∀ n : Nat, n < 4 → b ≠ a + BitVec.ofNat 32 n) → t.readByte b = s.readByte b) ∧
      (∀ r : Fin 15, cls ≠ .exclusive r → t.regs[r] = s.regs[r]) ∧
      t.hsctlr = s.hsctlr ∧ t.pstateE = s.pstateE ∧ t.pc = s.pc ∧ SameIt s t ∧ SameContext s t

/-- A word load from where a word store went, in the same byte order, gives the value stored and changes one register only.
The order is PSTATE.E's (R70, D17); that the two complete and move data is the model's own data access (log 25). -/
def Obligations.LoadAfterStoreGivesTheValue : Prop :=
  ∀ (s t : State) (cls cls' : AccessClass) (t0 t1 : Fin 15) (a : Word), a.toNat % 4 = 0 →
    (s.stage1 a).memType = .normal → (∀ status, cls ≠ .exclusive status) →
    s.runEvent (.access ⟨cls, .store t0, .word, a⟩) = .next t →
    ∃ u, t.runEvent (.access ⟨cls', .load t1, .word, a⟩) = .next u ∧ u.regs[t1] = s.regs[t0] ∧
      (∀ r : Fin 15, r ≠ t1 → u.regs[r] = t.regs[r]) ∧ u.hsctlr = t.hsctlr ∧ u.pstateE = t.pstateE ∧ u.pc = t.pc ∧
      SameIt t u ∧ SameContext t u ∧ SameMemory t u

/-- R71: with Eff(LSMAOE) 0 the accesses of a Load or Store Multiple at EL2 may be interrupted and need not be ordered; with
1 they are as Armv8.0 defines. HSCTLR says nothing of them at other levels (R130). -/
def Obligations.MultipleOrderByLsmaoe : Prop :=
  ∀ (s : State) (k : Nat),
    (s.atHyp = true → s.eff k .lsmaoe = false → s.multipleOrder k = .unorderedInterruptible) ∧
    (s.atHyp = true → s.eff k .lsmaoe = true → s.multipleOrder k = .asArmv80) ∧
    (s.atHyp = false → s.multipleOrder k = .notGoverned)

/-! ## Steps of the machine around (spec files 10, 70) -/

/-- R140 with R38: a Warm and a Cold reset (one effect by D5, log 12) leave HSCTLR as R37 says in the configuration,
whatever it held; that no write is pending and no TLB copy stale is the model's reading (log 11). By R141 and the table
under it, when the reset comes out in Hyp mode (GK11) it does so at EL2, in A32 state if reset_TE is 0 and in T32 state if
it is 1, with PSTATE.E and PSTATE.SSBS by EE and DSSBS, and by R143 the first MCR is allowed with no further set-up: the
access check allows it, and the PE is neither in an IT block nor directly after an IT (DEDUCED, log 3). That EL2 uses
AArch32 after a reset where both states are implemented is the model's choice (log 4). -/
def Obligations.ResetEventResetsHsctlr : Prop :=
  ∀ (s : State) (e : Event), (e = .warmReset ∨ e = .coldReset) →
    ∃ t, s.runEvent e = .next t ∧ t.hsctlr = Hsctlr.reset s.cfg ∧ t.cfg = s.cfg ∧
      (s.cfg.highestEL = .el2 → s.cfg.featAA32EL2 = true →
        t.el = .el2 ∧ t.iset = (if s.cfg.resetTE then .t32 else .a32) ∧
        t.pstateE = (if s.cfg.featMixedEnd then s.cfg.resetEE else s.cfg.featBigEnd) ∧
        (s.cfg.featSSBS = true → t.ssbs = s.cfg.resetDSSBS) ∧
        t.accessCheck = .allow ∧ t.inItBlock = false ∧ t.afterIt = false ∧ t.el2UsingAArch32 = true)

/-- R144, R145: a context synchronisation event leaves no write pending, a TLB invalidation no stale copy; neither changes
anything else. (The events are the model's, log 27.) -/
def Obligations.SynchronisationAndInvalidationEvents : Prop :=
  ∀ s : State,
    s.runEvent .contextSync = .next { s with hsctlr := { s.hsctlr with pending := 0#32 } } ∧
    s.runEvent .tlbInvalidate = .next { s with hsctlr := { s.hsctlr with tlbStale := 0#32 } }

/-- R13: HSCTLR and SCTLR_EL2[31:0] are one piece of state: after a write of SCTLR_EL2 from outside, an allowed MRC reads
the changed `S`. -/
def Obligations.SctlrEl2WriteIsReadByMrc : Prop :=
  ∀ (s t u : State) (v : Word) (i : Instr) (rt : BitVec 4), s.runEvent (.writeSctlrEl2 v) = .next t →
    AdmittedMrc t i rt → t.accessCheck = .allow → exec i t = .next u →
    u.readReg rt = some (readMasked s.cfg v)

/-! ## The machine as a whole -/

/-- A step runs the decoded instruction: in a legal configuration, at the PE's turn, when the bytes at the pc decode to
exactly an instruction and their fetch is permitted, the step is that instruction's meaning at the state with fresh draws
and the turn taken off. That the bytes which run are those that memory holds at the pc, every store before it seen, is the
model's choice (program order, log 41), and with M 1 that the pc is their address (log 21). -/
def Obligations.StepRunsTheDecodedInstruction : Prop :=
  ∀ (s : State) (n : Nat) (bs : List Byte) (i : Instr), s.cfg.legal = true →
    (s.turns = [] ∨ ∃ rest, s.turns = .instruction :: rest) →
    let s1 : State := { s with draws := s.draws + 1, turns := s.turns.tail }
    Memory.readBytes s.mem s.pc n = some bs → decode s.iset bs = .ok (i, []) → s1.fetchPermitted n = true →
    step s = exec i s1

/-- Bytes of no row of the table are an instruction outside the spec, which runs: `exec_outside_scope`, with every check of
its accesses (R103, last sentence; log 18). That the bytes are those that memory holds at the pc is the model's choice
(program order, log 41; with M 1, log 21). -/
def Obligations.WordsOutsideTheTableRun : Prop :=
  ∀ (s : State) (n : Nat) (bs : List Byte), s.cfg.legal = true →
    (s.turns = [] ∨ ∃ rest, s.turns = .instruction :: rest) →
    let s1 : State := { s with draws := s.draws + 1, turns := s.turns.tail }
    s1.fetchSize = some n → Memory.readBytes s.mem s.pc n = some bs → s1.fetchPermitted n = true →
    (∀ i rest, decode s.iset bs ≠ .ok (i, rest)) →
    step s = s1.outsideInstr (fun _ => true) (Config.outsideScope s1.draws)

/-- A turn of the machine around runs its event, and is then taken off: between any two instructions of a run the list of
turns can hold any events (R13, R39). -/
def Obligations.StepRunsThePendingEvent : Prop :=
  ∀ (s : State) (e : Event) (rest : List Turn), s.cfg.legal = true → s.turns = .around e :: rest →
    step s = ({ s with draws := s.draws + 1, turns := rest } : State).runEvent e

/-- A configuration that breaks a constraint of R3 is refused: FEAT_AA32EL2 without EL2 (R12, D4), and HighestEL = EL2
without EL2 (the model's reading, log 28). No other is. -/
def Obligations.IllegalConfigurationIsRefused : Prop :=
  ∀ s : State, ((s.cfg.featAA32EL2 = true ∨ s.cfg.highestEL = .el2) ∧ s.cfg.haveEL2 = false) ↔
    step s = .refused .illegalConfiguration

/-- Every step keeps the invariant `State.Inv`: canonical memory, a legal configuration, unknown, pending and stale bits
where the rules put them, no PSTATE.SSBS without FEAT_SSBS, and an instruction after an IT inside its block. -/
def Obligations.StepKeepsTheInvariant : Prop :=
  ∀ s t : State, s.Inv → step s = .next t → t.Inv

/-- The invariant holds right after reset, in every legal configuration. -/
def Obligations.ResetHasTheInvariant : Prop :=
  State.reset.Inv ∧ ∀ c : Config, c.legal = true → (State.resetWith c).Inv

/-- R3: no step changes a parameter of the configuration. -/
def Obligations.StepKeepsTheConfiguration : Prop :=
  ∀ s t : State, step s = .next t → t.cfg = s.cfg

/-- Of all instructions only an MCR whose access is allowed changes `S` or what is UNKNOWN of it, and it leaves what R36
writes: of the table's, and at every level of those outside the spec, which change the configuration neither (the model's
choice, log 18). -/
def Obligations.OnlyAllowedMcrChangesHsctlr : Prop :=
  (∀ (s t : State) (i : Instr), exec i s = .next t →
    SameS s t ∨
    (∃ rt v, (i = .mcrA32 0b1110#4 rt ∨ i = .mcrT32 rt) ∧ s.accessCheck = .allow ∧ s.readReg rt = some v ∧
      t.hsctlr.stored = writeMasked s.cfg s.hsctlr.stored v)) ∧
  (∀ (s t : State) (admits : Access → Bool) (o : OutsideInstr), s.outsideInstr admits o = .next t →
    SameS s t ∧ t.cfg = s.cfg)

/-- R130, R143: from EL0, from EL1 and from EL3 with SCR.NS 0, no step that runs an instruction changes `S` or what is
UNKNOWN of it. (Of an instruction outside the spec it is the model's choice, log 18.) -/
def Obligations.LowerLevelsCannotWriteHsctlr : Prop :=
  ∀ s t : State, (s.turns = [] ∨ ∃ rest, s.turns = .instruction :: rest) → step s = .next t →
    (s.el = .el0 ∨ s.el = .el1 ∨ (s.el = .el3 ∧ s.scrNS = false)) →
    t.hsctlr.stored = s.hsctlr.stored ∧ t.hsctlr.unknown = s.hsctlr.unknown

/-- R130, R91: at EL0 and EL1, and at EL3 with SCR.NS 0, an MRC reads nothing of HSCTLR: two states that agree on all but the
value of HSCTLR that their TE, EE and DSSBS do not show have the same outcome but for HSCTLR. The second clause is that of a
Hyp Trap, whose process state shows those three fields (R124 to R126); that the trap is taken, and that the pc, the IT state
and the registers after it are free values which do not depend on HSCTLR, is the model's choice (log 7, log 8). -/
def Obligations.LowerLevelsCannotReadHsctlr : Prop :=
  ∀ (s : State) (i : Instr) (rt : BitVec 4) (h : Hsctlr), AdmittedMrc s i rt →
    (s.el = .el0 ∨ s.el = .el1 ∨ (s.el = .el3 ∧ s.scrNS = false)) →
    (∀ f ∈ [Field.te, .ee, .dssbs], h.eff s.cfg (s.draw 3) f = s.hsctlr.eff s.cfg (s.draw 3) f) →
    (∀ r, exec i s = .fault r → exec i { s with hsctlr := h } = .fault r) ∧
    (∀ t, exec i s = .next t → ∃ h', exec i { s with hsctlr := h } = .next { t with hsctlr := h' })
end

