-- ==== Sys2Proof/Laws/Hsctlr.lean ====
section
/-! SUPPORT. HSCTLR bit by bit: which mask holds a bit, what an effective value is, what a write leaves. -/

namespace Sys2Proof.Machine

@[simp] theorem getLsbD_maskIf (b : Bool) (w : Word) (n : Nat) : (maskIf b w).getLsbD n = (b && w.getLsbD n) := by
  cases b <;> simp [maskIf]

@[simp] theorem synchronise_stored (h : Hsctlr) : h.synchronise.stored = h.stored := rfl
@[simp] theorem synchronise_unknown (h : Hsctlr) : h.synchronise.unknown = h.unknown := rfl
@[simp] theorem synchronise_pending (h : Hsctlr) : h.synchronise.pending = 0#32 := rfl
@[simp] theorem synchronise_tlbStale (h : Hsctlr) : h.synchronise.tlbStale = h.tlbStale := rfl
@[simp] theorem invalidate_stored (h : Hsctlr) : h.invalidateTlb.stored = h.stored := rfl
@[simp] theorem invalidate_unknown (h : Hsctlr) : h.invalidateTlb.unknown = h.unknown := rfl
@[simp] theorem invalidate_pending (h : Hsctlr) : h.invalidateTlb.pending = h.pending := rfl
@[simp] theorem invalidate_tlbStale (h : Hsctlr) : h.invalidateTlb.tlbStale = 0#32 := rfl
@[simp] theorem write_stored (c : Config) (h : Hsctlr) (v : Word) :
    (h.write c v).stored = writeMasked c h.stored v := rfl
@[simp] theorem write_unknown (c : Config) (h : Hsctlr) (v : Word) :
    (h.write c v).unknown = h.unknown &&& ~~~writeMask c := rfl
@[simp] theorem write_pending (c : Config) (h : Hsctlr) (v : Word) :
    (h.write c v).pending = h.pending ||| h.changedBy c v := rfl
@[simp] theorem write_tlbStale (c : Config) (h : Hsctlr) (v : Word) :
    (h.write c v).tlbStale = h.tlbStale ||| (h.changedBy c v &&& tlbMask) := rfl

@[simp] theorem outside_stored (o : Outside) (h : Hsctlr) : (outsideHsctlr o h).stored = h.stored := by
  simp only [outsideHsctlr]; split <;> split <;> rfl
@[simp] theorem outside_unknown (o : Outside) (h : Hsctlr) : (outsideHsctlr o h).unknown = h.unknown := by
  simp only [outsideHsctlr]; split <;> split <;> rfl
theorem outside_pending (o : Outside) (h : Hsctlr) :
    (outsideHsctlr o h).pending = h.pending ∨ (outsideHsctlr o h).pending = 0#32 := by
  simp only [outsideHsctlr]; split <;> split <;> simp
theorem outside_tlbStale (o : Outside) (h : Hsctlr) :
    (outsideHsctlr o h).tlbStale = h.tlbStale ∨ (outsideHsctlr o h).tlbStale = 0#32 := by
  simp only [outsideHsctlr]; split <;> split <;> simp

/-- A control bit is writable under both policies (R36). -/
theorem writeMask_of_ctrl {c : Config} {n : Nat} (h : (ctrlMask c).getLsbD n = true) :
    (writeMask c).getLsbD n = true := by
  cases hp : c.resPolicy <;> simp [writeMask, hp, h]

/-- The effective value of a settled control (R34). -/
theorem eff_control {c : Config} {h : Hsctlr} {d : Word} {f : Field} (hc : (ctrlMask c).getLsbD f.bit = true)
    (hs : h.settled f) : h.eff c d f = h.stored.getLsbD f.bit := by
  simp only [Hsctlr.settled] at hs
  simp [Hsctlr.eff, hc, hs]

/-- The effective value of an unsettled control is a draw (D6, R144, R145). -/
theorem eff_draw {c : Config} {h : Hsctlr} {d : Word} {f : Field} (hc : (ctrlMask c).getLsbD f.bit = true)
    (hs : (h.unknown ||| h.pending ||| h.tlbStale).getLsbD f.bit = true) : h.eff c d f = d.getLsbD f.bit := by
  simp only [Hsctlr.eff, hc, hs, if_true]

/-- The effective value of a fixed field (R34). -/
theorem eff_fixed {c : Config} {h : Hsctlr} {d : Word} {f : Field} (hc : (ctrlMask c).getLsbD f.bit = false) :
    h.eff c d f = (res1Mask c ||| raowiMask c).getLsbD f.bit := by
  simp [Hsctlr.eff, hc]

/-- With nothing UNKNOWN the value is `S` under every draw (R35). -/
theorem value_known {h : Hsctlr} (hu : h.unknown = 0#32) (d : Word) : h.value d = h.stored := by
  have e : ~~~(0#32 : Word) = BitVec.allOnes 32 := by decide
  simp only [Hsctlr.value, hu, e, BitVec.and_allOnes, BitVec.and_zero, BitVec.or_zero]

/-- With nothing UNKNOWN an access reads `S` through the masks of R35. -/
theorem readHsctlr_known {s : State} (hu : s.hsctlr.unknown = 0#32) :
    s.readHsctlr = readMasked s.cfg s.hsctlr.stored := by
  rw [State.readHsctlr, value_known hu]

/-- A write leaves the written value in a control bit (R36). -/
theorem writeMasked_control {c : Config} {n : Nat} (hc : (ctrlMask c).getLsbD n = true) (s v : Word) :
    (writeMasked c s v).getLsbD n = v.getLsbD n := by
  have hn : n < 32 := BitVec.lt_of_getLsbD hc
  simp [writeMasked, writeMask_of_ctrl hc]

end Sys2Proof.Machine
end

