-- ==== Sys2Proof/Laws/State.lean ====
section
/-! SUPPORT. One lemma per field of State per named update: each operation changes the fields its docstring names and no
other. -/

namespace Sys2Proof.Machine

variable (s : State)

/-! ## tick -/

@[simp] theorem tick_cfg : s.tick.cfg = s.cfg := rfl
@[simp] theorem tick_hsctlr : s.tick.hsctlr = s.hsctlr := rfl
@[simp] theorem tick_regs : s.tick.regs = s.regs := rfl
@[simp] theorem tick_pc : s.tick.pc = s.pc := rfl
@[simp] theorem tick_el : s.tick.el = s.el := rfl
@[simp] theorem tick_iset : s.tick.iset = s.iset := rfl
@[simp] theorem tick_pstateE : s.tick.pstateE = s.pstateE := rfl
@[simp] theorem tick_ssbs : s.tick.ssbs = s.ssbs := rfl
@[simp] theorem tick_itState : s.tick.itState = s.itState := rfl
@[simp] theorem tick_afterIt : s.tick.afterIt = s.afterIt := rfl
@[simp] theorem tick_scrNS : s.tick.scrNS = s.scrNS := rfl
@[simp] theorem tick_hstrT1 : s.tick.hstrT1 = s.hstrT1 := rfl
@[simp] theorem tick_hstrEl2T1 : s.tick.hstrEl2T1 = s.hstrEl2T1 := rfl
@[simp] theorem tick_el2Enabled : s.tick.el2Enabled = s.el2Enabled := rfl
@[simp] theorem tick_el2UsingAArch32 : s.tick.el2UsingAArch32 = s.el2UsingAArch32 := rfl
@[simp] theorem tick_sctlrSED : s.tick.sctlrSED = s.sctlrSED := rfl
@[simp] theorem tick_sctlrITD : s.tick.sctlrITD = s.sctlrITD := rfl
@[simp] theorem tick_sctlrCP15BEN : s.tick.sctlrCP15BEN = s.sctlrCP15BEN := rfl
@[simp] theorem tick_hypTrapEc : s.tick.hypTrapEc = s.hypTrapEc := rfl
@[simp] theorem tick_regsLeft : s.tick.regsLeft = s.regsLeft := rfl
@[simp] theorem tick_regions : s.tick.regions = s.regions := rfl
@[simp] theorem tick_mem : s.tick.mem = s.mem := rfl
@[simp] theorem tick_turns : s.tick.turns = s.turns := rfl
@[simp] theorem tick_draws : s.tick.draws = s.draws + 1 := rfl

/-! ## pastA32 -/

@[simp] theorem pastA32_cfg : s.pastA32.cfg = s.cfg := rfl
@[simp] theorem pastA32_hsctlr : s.pastA32.hsctlr = s.hsctlr := rfl
@[simp] theorem pastA32_regs : s.pastA32.regs = s.regs := rfl
@[simp] theorem pastA32_pc : s.pastA32.pc = s.pc + 4#32 := rfl
@[simp] theorem pastA32_el : s.pastA32.el = s.el := rfl
@[simp] theorem pastA32_iset : s.pastA32.iset = s.iset := rfl
@[simp] theorem pastA32_pstateE : s.pastA32.pstateE = s.pstateE := rfl
@[simp] theorem pastA32_ssbs : s.pastA32.ssbs = s.ssbs := rfl
@[simp] theorem pastA32_itState : s.pastA32.itState = s.itState := rfl
@[simp] theorem pastA32_afterIt : s.pastA32.afterIt = false := rfl
@[simp] theorem pastA32_scrNS : s.pastA32.scrNS = s.scrNS := rfl
@[simp] theorem pastA32_hstrT1 : s.pastA32.hstrT1 = s.hstrT1 := rfl
@[simp] theorem pastA32_hstrEl2T1 : s.pastA32.hstrEl2T1 = s.hstrEl2T1 := rfl
@[simp] theorem pastA32_el2Enabled : s.pastA32.el2Enabled = s.el2Enabled := rfl
@[simp] theorem pastA32_el2UsingAArch32 : s.pastA32.el2UsingAArch32 = s.el2UsingAArch32 := rfl
@[simp] theorem pastA32_sctlrSED : s.pastA32.sctlrSED = s.sctlrSED := rfl
@[simp] theorem pastA32_sctlrITD : s.pastA32.sctlrITD = s.sctlrITD := rfl
@[simp] theorem pastA32_sctlrCP15BEN : s.pastA32.sctlrCP15BEN = s.sctlrCP15BEN := rfl
@[simp] theorem pastA32_hypTrapEc : s.pastA32.hypTrapEc = s.hypTrapEc := rfl
@[simp] theorem pastA32_regsLeft : s.pastA32.regsLeft = s.regsLeft := rfl
@[simp] theorem pastA32_regions : s.pastA32.regions = s.regions := rfl
@[simp] theorem pastA32_mem : s.pastA32.mem = s.mem := rfl
@[simp] theorem pastA32_turns : s.pastA32.turns = s.turns := rfl
@[simp] theorem pastA32_draws : s.pastA32.draws = s.draws := rfl

/-! ## pastT32 -/

@[simp] theorem pastT32_cfg (len : Word) : (s.pastT32 len).cfg = s.cfg := rfl
@[simp] theorem pastT32_hsctlr (len : Word) : (s.pastT32 len).hsctlr = s.hsctlr := rfl
@[simp] theorem pastT32_regs (len : Word) : (s.pastT32 len).regs = s.regs := rfl
@[simp] theorem pastT32_pc (len : Word) : (s.pastT32 len).pc = s.pc + len := rfl
@[simp] theorem pastT32_el (len : Word) : (s.pastT32 len).el = s.el := rfl
@[simp] theorem pastT32_iset (len : Word) : (s.pastT32 len).iset = s.iset := rfl
@[simp] theorem pastT32_pstateE (len : Word) : (s.pastT32 len).pstateE = s.pstateE := rfl
@[simp] theorem pastT32_ssbs (len : Word) : (s.pastT32 len).ssbs = s.ssbs := rfl
@[simp] theorem pastT32_itState (len : Word) : (s.pastT32 len).itState = itAdvance s.itState := rfl
@[simp] theorem pastT32_afterIt (len : Word) : (s.pastT32 len).afterIt = false := rfl
@[simp] theorem pastT32_scrNS (len : Word) : (s.pastT32 len).scrNS = s.scrNS := rfl
@[simp] theorem pastT32_hstrT1 (len : Word) : (s.pastT32 len).hstrT1 = s.hstrT1 := rfl
@[simp] theorem pastT32_hstrEl2T1 (len : Word) : (s.pastT32 len).hstrEl2T1 = s.hstrEl2T1 := rfl
@[simp] theorem pastT32_el2Enabled (len : Word) : (s.pastT32 len).el2Enabled = s.el2Enabled := rfl
@[simp] theorem pastT32_el2UsingAArch32 (len : Word) : (s.pastT32 len).el2UsingAArch32 = s.el2UsingAArch32 := rfl
@[simp] theorem pastT32_sctlrSED (len : Word) : (s.pastT32 len).sctlrSED = s.sctlrSED := rfl
@[simp] theorem pastT32_sctlrITD (len : Word) : (s.pastT32 len).sctlrITD = s.sctlrITD := rfl
@[simp] theorem pastT32_sctlrCP15BEN (len : Word) : (s.pastT32 len).sctlrCP15BEN = s.sctlrCP15BEN := rfl
@[simp] theorem pastT32_hypTrapEc (len : Word) : (s.pastT32 len).hypTrapEc = s.hypTrapEc := rfl
@[simp] theorem pastT32_regsLeft (len : Word) : (s.pastT32 len).regsLeft = s.regsLeft := rfl
@[simp] theorem pastT32_regions (len : Word) : (s.pastT32 len).regions = s.regions := rfl
@[simp] theorem pastT32_mem (len : Word) : (s.pastT32 len).mem = s.mem := rfl
@[simp] theorem pastT32_turns (len : Word) : (s.pastT32 len).turns = s.turns := rfl
@[simp] theorem pastT32_draws (len : Word) : (s.pastT32 len).draws = s.draws := rfl

/-! ## writeReg -/

@[simp] theorem writeReg_cfg (t : BitVec 4) (v : Word) : (s.writeReg t v).cfg = s.cfg := rfl
@[simp] theorem writeReg_hsctlr (t : BitVec 4) (v : Word) : (s.writeReg t v).hsctlr = s.hsctlr := rfl
@[simp] theorem writeReg_regs (t : BitVec 4) (v : Word) : (s.writeReg t v).regs = s.regs.setIfInBounds t.toNat v := rfl
@[simp] theorem writeReg_pc (t : BitVec 4) (v : Word) : (s.writeReg t v).pc = s.pc := rfl
@[simp] theorem writeReg_el (t : BitVec 4) (v : Word) : (s.writeReg t v).el = s.el := rfl
@[simp] theorem writeReg_iset (t : BitVec 4) (v : Word) : (s.writeReg t v).iset = s.iset := rfl
@[simp] theorem writeReg_pstateE (t : BitVec 4) (v : Word) : (s.writeReg t v).pstateE = s.pstateE := rfl
@[simp] theorem writeReg_ssbs (t : BitVec 4) (v : Word) : (s.writeReg t v).ssbs = s.ssbs := rfl
@[simp] theorem writeReg_itState (t : BitVec 4) (v : Word) : (s.writeReg t v).itState = s.itState := rfl
@[simp] theorem writeReg_afterIt (t : BitVec 4) (v : Word) : (s.writeReg t v).afterIt = s.afterIt := rfl
@[simp] theorem writeReg_scrNS (t : BitVec 4) (v : Word) : (s.writeReg t v).scrNS = s.scrNS := rfl
@[simp] theorem writeReg_hstrT1 (t : BitVec 4) (v : Word) : (s.writeReg t v).hstrT1 = s.hstrT1 := rfl
@[simp] theorem writeReg_hstrEl2T1 (t : BitVec 4) (v : Word) : (s.writeReg t v).hstrEl2T1 = s.hstrEl2T1 := rfl
@[simp] theorem writeReg_el2Enabled (t : BitVec 4) (v : Word) : (s.writeReg t v).el2Enabled = s.el2Enabled := rfl
@[simp] theorem writeReg_el2UsingAArch32 (t : BitVec 4) (v : Word) : (s.writeReg t v).el2UsingAArch32 = s.el2UsingAArch32 := rfl
@[simp] theorem writeReg_sctlrSED (t : BitVec 4) (v : Word) : (s.writeReg t v).sctlrSED = s.sctlrSED := rfl
@[simp] theorem writeReg_sctlrITD (t : BitVec 4) (v : Word) : (s.writeReg t v).sctlrITD = s.sctlrITD := rfl
@[simp] theorem writeReg_sctlrCP15BEN (t : BitVec 4) (v : Word) : (s.writeReg t v).sctlrCP15BEN = s.sctlrCP15BEN := rfl
@[simp] theorem writeReg_hypTrapEc (t : BitVec 4) (v : Word) : (s.writeReg t v).hypTrapEc = s.hypTrapEc := rfl
@[simp] theorem writeReg_regsLeft (t : BitVec 4) (v : Word) : (s.writeReg t v).regsLeft = s.regsLeft := rfl
@[simp] theorem writeReg_regions (t : BitVec 4) (v : Word) : (s.writeReg t v).regions = s.regions := rfl
@[simp] theorem writeReg_mem (t : BitVec 4) (v : Word) : (s.writeReg t v).mem = s.mem := rfl
@[simp] theorem writeReg_turns (t : BitVec 4) (v : Word) : (s.writeReg t v).turns = s.turns := rfl
@[simp] theorem writeReg_draws (t : BitVec 4) (v : Word) : (s.writeReg t v).draws = s.draws := rfl

/-! ## writeHsctlr -/

@[simp] theorem writeHsctlr_cfg (v : Word) : (s.writeHsctlr v).cfg = s.cfg := rfl
@[simp] theorem writeHsctlr_hsctlr (v : Word) : (s.writeHsctlr v).hsctlr = s.hsctlr.write s.cfg v := rfl
@[simp] theorem writeHsctlr_regs (v : Word) : (s.writeHsctlr v).regs = s.regs := rfl
@[simp] theorem writeHsctlr_pc (v : Word) : (s.writeHsctlr v).pc = s.pc := rfl
@[simp] theorem writeHsctlr_el (v : Word) : (s.writeHsctlr v).el = s.el := rfl
@[simp] theorem writeHsctlr_iset (v : Word) : (s.writeHsctlr v).iset = s.iset := rfl
@[simp] theorem writeHsctlr_pstateE (v : Word) : (s.writeHsctlr v).pstateE = s.pstateE := rfl
@[simp] theorem writeHsctlr_ssbs (v : Word) : (s.writeHsctlr v).ssbs = s.ssbs := rfl
@[simp] theorem writeHsctlr_itState (v : Word) : (s.writeHsctlr v).itState = s.itState := rfl
@[simp] theorem writeHsctlr_afterIt (v : Word) : (s.writeHsctlr v).afterIt = s.afterIt := rfl
@[simp] theorem writeHsctlr_scrNS (v : Word) : (s.writeHsctlr v).scrNS = s.scrNS := rfl
@[simp] theorem writeHsctlr_hstrT1 (v : Word) : (s.writeHsctlr v).hstrT1 = s.hstrT1 := rfl
@[simp] theorem writeHsctlr_hstrEl2T1 (v : Word) : (s.writeHsctlr v).hstrEl2T1 = s.hstrEl2T1 := rfl
@[simp] theorem writeHsctlr_el2Enabled (v : Word) : (s.writeHsctlr v).el2Enabled = s.el2Enabled := rfl
@[simp] theorem writeHsctlr_el2UsingAArch32 (v : Word) : (s.writeHsctlr v).el2UsingAArch32 = s.el2UsingAArch32 := rfl
@[simp] theorem writeHsctlr_sctlrSED (v : Word) : (s.writeHsctlr v).sctlrSED = s.sctlrSED := rfl
@[simp] theorem writeHsctlr_sctlrITD (v : Word) : (s.writeHsctlr v).sctlrITD = s.sctlrITD := rfl
@[simp] theorem writeHsctlr_sctlrCP15BEN (v : Word) : (s.writeHsctlr v).sctlrCP15BEN = s.sctlrCP15BEN := rfl
@[simp] theorem writeHsctlr_hypTrapEc (v : Word) : (s.writeHsctlr v).hypTrapEc = s.hypTrapEc := rfl
@[simp] theorem writeHsctlr_regsLeft (v : Word) : (s.writeHsctlr v).regsLeft = s.regsLeft := rfl
@[simp] theorem writeHsctlr_regions (v : Word) : (s.writeHsctlr v).regions = s.regions := rfl
@[simp] theorem writeHsctlr_mem (v : Word) : (s.writeHsctlr v).mem = s.mem := rfl
@[simp] theorem writeHsctlr_turns (v : Word) : (s.writeHsctlr v).turns = s.turns := rfl
@[simp] theorem writeHsctlr_draws (v : Word) : (s.writeHsctlr v).draws = s.draws := rfl

/-! ## writeSctlrEl2 -/

@[simp] theorem writeSctlrEl2_cfg (v : Word) : (s.writeSctlrEl2 v).cfg = s.cfg := rfl
@[simp] theorem writeSctlrEl2_hsctlr (v : Word) : (s.writeSctlrEl2 v).hsctlr = s.hsctlr.writeFromOutside s.cfg v := rfl
@[simp] theorem writeSctlrEl2_regs (v : Word) : (s.writeSctlrEl2 v).regs = s.regs := rfl
@[simp] theorem writeSctlrEl2_pc (v : Word) : (s.writeSctlrEl2 v).pc = s.pc := rfl
@[simp] theorem writeSctlrEl2_el (v : Word) : (s.writeSctlrEl2 v).el = s.el := rfl
@[simp] theorem writeSctlrEl2_iset (v : Word) : (s.writeSctlrEl2 v).iset = s.iset := rfl
@[simp] theorem writeSctlrEl2_pstateE (v : Word) : (s.writeSctlrEl2 v).pstateE = s.pstateE := rfl
@[simp] theorem writeSctlrEl2_ssbs (v : Word) : (s.writeSctlrEl2 v).ssbs = s.ssbs := rfl
@[simp] theorem writeSctlrEl2_itState (v : Word) : (s.writeSctlrEl2 v).itState = s.itState := rfl
@[simp] theorem writeSctlrEl2_afterIt (v : Word) : (s.writeSctlrEl2 v).afterIt = s.afterIt := rfl
@[simp] theorem writeSctlrEl2_scrNS (v : Word) : (s.writeSctlrEl2 v).scrNS = s.scrNS := rfl
@[simp] theorem writeSctlrEl2_hstrT1 (v : Word) : (s.writeSctlrEl2 v).hstrT1 = s.hstrT1 := rfl
@[simp] theorem writeSctlrEl2_hstrEl2T1 (v : Word) : (s.writeSctlrEl2 v).hstrEl2T1 = s.hstrEl2T1 := rfl
@[simp] theorem writeSctlrEl2_el2Enabled (v : Word) : (s.writeSctlrEl2 v).el2Enabled = s.el2Enabled := rfl
@[simp] theorem writeSctlrEl2_el2UsingAArch32 (v : Word) : (s.writeSctlrEl2 v).el2UsingAArch32 = s.el2UsingAArch32 := rfl
@[simp] theorem writeSctlrEl2_sctlrSED (v : Word) : (s.writeSctlrEl2 v).sctlrSED = s.sctlrSED := rfl
@[simp] theorem writeSctlrEl2_sctlrITD (v : Word) : (s.writeSctlrEl2 v).sctlrITD = s.sctlrITD := rfl
@[simp] theorem writeSctlrEl2_sctlrCP15BEN (v : Word) : (s.writeSctlrEl2 v).sctlrCP15BEN = s.sctlrCP15BEN := rfl
@[simp] theorem writeSctlrEl2_hypTrapEc (v : Word) : (s.writeSctlrEl2 v).hypTrapEc = s.hypTrapEc := rfl
@[simp] theorem writeSctlrEl2_regsLeft (v : Word) : (s.writeSctlrEl2 v).regsLeft = s.regsLeft := rfl
@[simp] theorem writeSctlrEl2_regions (v : Word) : (s.writeSctlrEl2 v).regions = s.regions := rfl
@[simp] theorem writeSctlrEl2_mem (v : Word) : (s.writeSctlrEl2 v).mem = s.mem := rfl
@[simp] theorem writeSctlrEl2_turns (v : Word) : (s.writeSctlrEl2 v).turns = s.turns := rfl
@[simp] theorem writeSctlrEl2_draws (v : Word) : (s.writeSctlrEl2 v).draws = s.draws := rfl

/-! ## invalidateTlb -/

@[simp] theorem invalidateTlb_cfg : s.invalidateTlb.cfg = s.cfg := rfl
@[simp] theorem invalidateTlb_hsctlr : s.invalidateTlb.hsctlr = s.hsctlr.invalidateTlb := rfl
@[simp] theorem invalidateTlb_regs : s.invalidateTlb.regs = s.regs := rfl
@[simp] theorem invalidateTlb_pc : s.invalidateTlb.pc = s.pc := rfl
@[simp] theorem invalidateTlb_el : s.invalidateTlb.el = s.el := rfl
@[simp] theorem invalidateTlb_iset : s.invalidateTlb.iset = s.iset := rfl
@[simp] theorem invalidateTlb_pstateE : s.invalidateTlb.pstateE = s.pstateE := rfl
@[simp] theorem invalidateTlb_ssbs : s.invalidateTlb.ssbs = s.ssbs := rfl
@[simp] theorem invalidateTlb_itState : s.invalidateTlb.itState = s.itState := rfl
@[simp] theorem invalidateTlb_afterIt : s.invalidateTlb.afterIt = s.afterIt := rfl
@[simp] theorem invalidateTlb_scrNS : s.invalidateTlb.scrNS = s.scrNS := rfl
@[simp] theorem invalidateTlb_hstrT1 : s.invalidateTlb.hstrT1 = s.hstrT1 := rfl
@[simp] theorem invalidateTlb_hstrEl2T1 : s.invalidateTlb.hstrEl2T1 = s.hstrEl2T1 := rfl
@[simp] theorem invalidateTlb_el2Enabled : s.invalidateTlb.el2Enabled = s.el2Enabled := rfl
@[simp] theorem invalidateTlb_el2UsingAArch32 : s.invalidateTlb.el2UsingAArch32 = s.el2UsingAArch32 := rfl
@[simp] theorem invalidateTlb_sctlrSED : s.invalidateTlb.sctlrSED = s.sctlrSED := rfl
@[simp] theorem invalidateTlb_sctlrITD : s.invalidateTlb.sctlrITD = s.sctlrITD := rfl
@[simp] theorem invalidateTlb_sctlrCP15BEN : s.invalidateTlb.sctlrCP15BEN = s.sctlrCP15BEN := rfl
@[simp] theorem invalidateTlb_hypTrapEc : s.invalidateTlb.hypTrapEc = s.hypTrapEc := rfl
@[simp] theorem invalidateTlb_regsLeft : s.invalidateTlb.regsLeft = s.regsLeft := rfl
@[simp] theorem invalidateTlb_regions : s.invalidateTlb.regions = s.regions := rfl
@[simp] theorem invalidateTlb_mem : s.invalidateTlb.mem = s.mem := rfl
@[simp] theorem invalidateTlb_turns : s.invalidateTlb.turns = s.turns := rfl
@[simp] theorem invalidateTlb_draws : s.invalidateTlb.draws = s.draws := rfl

/-! ## synchronise -/

@[simp] theorem synchronise_cfg : s.synchronise.cfg = s.cfg := rfl
@[simp] theorem synchronise_hsctlr : s.synchronise.hsctlr = s.hsctlr.synchronise := rfl
@[simp] theorem synchronise_regs : s.synchronise.regs = s.regs := rfl
@[simp] theorem synchronise_pc : s.synchronise.pc = s.pc := rfl
@[simp] theorem synchronise_el : s.synchronise.el = s.el := rfl
@[simp] theorem synchronise_iset : s.synchronise.iset = s.iset := rfl
@[simp] theorem synchronise_pstateE : s.synchronise.pstateE = s.pstateE := rfl
@[simp] theorem synchronise_ssbs : s.synchronise.ssbs = s.ssbs := rfl
@[simp] theorem synchronise_itState : s.synchronise.itState = s.itState := rfl
@[simp] theorem synchronise_afterIt : s.synchronise.afterIt = s.afterIt := rfl
@[simp] theorem synchronise_scrNS : s.synchronise.scrNS = s.scrNS := rfl
@[simp] theorem synchronise_hstrT1 : s.synchronise.hstrT1 = s.hstrT1 := rfl
@[simp] theorem synchronise_hstrEl2T1 : s.synchronise.hstrEl2T1 = s.hstrEl2T1 := rfl
@[simp] theorem synchronise_el2Enabled : s.synchronise.el2Enabled = s.el2Enabled := rfl
@[simp] theorem synchronise_el2UsingAArch32 : s.synchronise.el2UsingAArch32 = s.el2UsingAArch32 := rfl
@[simp] theorem synchronise_sctlrSED : s.synchronise.sctlrSED = s.sctlrSED := rfl
@[simp] theorem synchronise_sctlrITD : s.synchronise.sctlrITD = s.sctlrITD := rfl
@[simp] theorem synchronise_sctlrCP15BEN : s.synchronise.sctlrCP15BEN = s.sctlrCP15BEN := rfl
@[simp] theorem synchronise_hypTrapEc : s.synchronise.hypTrapEc = s.hypTrapEc := rfl
@[simp] theorem synchronise_regsLeft : s.synchronise.regsLeft = s.regsLeft := rfl
@[simp] theorem synchronise_regions : s.synchronise.regions = s.regions := rfl
@[simp] theorem synchronise_mem : s.synchronise.mem = s.mem := rfl
@[simp] theorem synchronise_turns : s.synchronise.turns = s.turns := rfl
@[simp] theorem synchronise_draws : s.synchronise.draws = s.draws := rfl

/-! ## openItBlock -/

@[simp] theorem openItBlock_cfg (c m : BitVec 4) : (s.openItBlock c m).cfg = s.cfg := rfl
@[simp] theorem openItBlock_hsctlr (c m : BitVec 4) : (s.openItBlock c m).hsctlr = s.hsctlr := rfl
@[simp] theorem openItBlock_regs (c m : BitVec 4) : (s.openItBlock c m).regs = s.regs := rfl
@[simp] theorem openItBlock_pc (c m : BitVec 4) : (s.openItBlock c m).pc = s.pc + 2#32 := rfl
@[simp] theorem openItBlock_el (c m : BitVec 4) : (s.openItBlock c m).el = s.el := rfl
@[simp] theorem openItBlock_iset (c m : BitVec 4) : (s.openItBlock c m).iset = s.iset := rfl
@[simp] theorem openItBlock_pstateE (c m : BitVec 4) : (s.openItBlock c m).pstateE = s.pstateE := rfl
@[simp] theorem openItBlock_ssbs (c m : BitVec 4) : (s.openItBlock c m).ssbs = s.ssbs := rfl
@[simp] theorem openItBlock_itState (c m : BitVec 4) : (s.openItBlock c m).itState = c ++ m := rfl
@[simp] theorem openItBlock_afterIt (c m : BitVec 4) : (s.openItBlock c m).afterIt = true := rfl
@[simp] theorem openItBlock_scrNS (c m : BitVec 4) : (s.openItBlock c m).scrNS = s.scrNS := rfl
@[simp] theorem openItBlock_hstrT1 (c m : BitVec 4) : (s.openItBlock c m).hstrT1 = s.hstrT1 := rfl
@[simp] theorem openItBlock_hstrEl2T1 (c m : BitVec 4) : (s.openItBlock c m).hstrEl2T1 = s.hstrEl2T1 := rfl
@[simp] theorem openItBlock_el2Enabled (c m : BitVec 4) : (s.openItBlock c m).el2Enabled = s.el2Enabled := rfl
@[simp] theorem openItBlock_el2UsingAArch32 (c m : BitVec 4) : (s.openItBlock c m).el2UsingAArch32 = s.el2UsingAArch32 := rfl
@[simp] theorem openItBlock_sctlrSED (c m : BitVec 4) : (s.openItBlock c m).sctlrSED = s.sctlrSED := rfl
@[simp] theorem openItBlock_sctlrITD (c m : BitVec 4) : (s.openItBlock c m).sctlrITD = s.sctlrITD := rfl
@[simp] theorem openItBlock_sctlrCP15BEN (c m : BitVec 4) : (s.openItBlock c m).sctlrCP15BEN = s.sctlrCP15BEN := rfl
@[simp] theorem openItBlock_hypTrapEc (c m : BitVec 4) : (s.openItBlock c m).hypTrapEc = s.hypTrapEc := rfl
@[simp] theorem openItBlock_regsLeft (c m : BitVec 4) : (s.openItBlock c m).regsLeft = s.regsLeft := rfl
@[simp] theorem openItBlock_regions (c m : BitVec 4) : (s.openItBlock c m).regions = s.regions := rfl
@[simp] theorem openItBlock_mem (c m : BitVec 4) : (s.openItBlock c m).mem = s.mem := rfl
@[simp] theorem openItBlock_turns (c m : BitVec 4) : (s.openItBlock c m).turns = s.turns := rfl
@[simp] theorem openItBlock_draws (c m : BitVec 4) : (s.openItBlock c m).draws = s.draws := rfl

/-! ## takeExceptionToHyp -/

@[simp] theorem takeExceptionToHyp_cfg : s.takeExceptionToHyp.cfg = s.cfg := rfl
@[simp] theorem takeExceptionToHyp_hsctlr : s.takeExceptionToHyp.hsctlr = s.hsctlr.synchronise := rfl
@[simp] theorem takeExceptionToHyp_regs : s.takeExceptionToHyp.regs = Config.freeRegs s.draws := rfl
@[simp] theorem takeExceptionToHyp_pc : s.takeExceptionToHyp.pc = Config.freeHandler s.draws := rfl
@[simp] theorem takeExceptionToHyp_el : s.takeExceptionToHyp.el = .el2 := rfl
@[simp] theorem takeExceptionToHyp_iset : s.takeExceptionToHyp.iset = (if s.eff 3 .te then .t32 else .a32) := rfl
@[simp] theorem takeExceptionToHyp_pstateE : s.takeExceptionToHyp.pstateE = s.eff 3 .ee := rfl
@[simp] theorem takeExceptionToHyp_ssbs : s.takeExceptionToHyp.ssbs = (if s.cfg.featSSBS then s.eff 3 .dssbs else s.ssbs) := rfl
@[simp] theorem takeExceptionToHyp_itState : s.takeExceptionToHyp.itState = Config.freeItState s.draws := rfl
@[simp] theorem takeExceptionToHyp_afterIt : s.takeExceptionToHyp.afterIt = false := rfl
@[simp] theorem takeExceptionToHyp_scrNS : s.takeExceptionToHyp.scrNS = s.scrNS := rfl
@[simp] theorem takeExceptionToHyp_hstrT1 : s.takeExceptionToHyp.hstrT1 = s.hstrT1 := rfl
@[simp] theorem takeExceptionToHyp_hstrEl2T1 : s.takeExceptionToHyp.hstrEl2T1 = s.hstrEl2T1 := rfl
@[simp] theorem takeExceptionToHyp_el2Enabled : s.takeExceptionToHyp.el2Enabled = s.el2Enabled := rfl
@[simp] theorem takeExceptionToHyp_el2UsingAArch32 : s.takeExceptionToHyp.el2UsingAArch32 = s.el2UsingAArch32 := rfl
@[simp] theorem takeExceptionToHyp_sctlrSED : s.takeExceptionToHyp.sctlrSED = s.sctlrSED := rfl
@[simp] theorem takeExceptionToHyp_sctlrITD : s.takeExceptionToHyp.sctlrITD = s.sctlrITD := rfl
@[simp] theorem takeExceptionToHyp_sctlrCP15BEN : s.takeExceptionToHyp.sctlrCP15BEN = s.sctlrCP15BEN := rfl
@[simp] theorem takeExceptionToHyp_hypTrapEc : s.takeExceptionToHyp.hypTrapEc = s.hypTrapEc := rfl
@[simp] theorem takeExceptionToHyp_regsLeft : s.takeExceptionToHyp.regsLeft = some s.regs := rfl
@[simp] theorem takeExceptionToHyp_regions : s.takeExceptionToHyp.regions = s.regions := rfl
@[simp] theorem takeExceptionToHyp_mem : s.takeExceptionToHyp.mem = s.mem := rfl
@[simp] theorem takeExceptionToHyp_turns : s.takeExceptionToHyp.turns = s.turns := rfl
@[simp] theorem takeExceptionToHyp_draws : s.takeExceptionToHyp.draws = s.draws := rfl

/-! ## takeHypTrap -/

@[simp] theorem takeHypTrap_cfg (ec : Nat) : (s.takeHypTrap ec).cfg = s.cfg := rfl
@[simp] theorem takeHypTrap_hsctlr (ec : Nat) : (s.takeHypTrap ec).hsctlr = s.hsctlr.synchronise := rfl
@[simp] theorem takeHypTrap_regs (ec : Nat) : (s.takeHypTrap ec).regs = Config.freeRegs s.draws := rfl
@[simp] theorem takeHypTrap_pc (ec : Nat) : (s.takeHypTrap ec).pc = Config.freeHandler s.draws := rfl
@[simp] theorem takeHypTrap_el (ec : Nat) : (s.takeHypTrap ec).el = .el2 := rfl
@[simp] theorem takeHypTrap_iset (ec : Nat) : (s.takeHypTrap ec).iset = (if s.eff 3 .te then .t32 else .a32) := rfl
@[simp] theorem takeHypTrap_pstateE (ec : Nat) : (s.takeHypTrap ec).pstateE = s.eff 3 .ee := rfl
@[simp] theorem takeHypTrap_ssbs (ec : Nat) : (s.takeHypTrap ec).ssbs = (if s.cfg.featSSBS then s.eff 3 .dssbs else s.ssbs) := rfl
@[simp] theorem takeHypTrap_itState (ec : Nat) : (s.takeHypTrap ec).itState = Config.freeItState s.draws := rfl
@[simp] theorem takeHypTrap_afterIt (ec : Nat) : (s.takeHypTrap ec).afterIt = false := rfl
@[simp] theorem takeHypTrap_scrNS (ec : Nat) : (s.takeHypTrap ec).scrNS = s.scrNS := rfl
@[simp] theorem takeHypTrap_hstrT1 (ec : Nat) : (s.takeHypTrap ec).hstrT1 = s.hstrT1 := rfl
@[simp] theorem takeHypTrap_hstrEl2T1 (ec : Nat) : (s.takeHypTrap ec).hstrEl2T1 = s.hstrEl2T1 := rfl
@[simp] theorem takeHypTrap_el2Enabled (ec : Nat) : (s.takeHypTrap ec).el2Enabled = s.el2Enabled := rfl
@[simp] theorem takeHypTrap_el2UsingAArch32 (ec : Nat) : (s.takeHypTrap ec).el2UsingAArch32 = s.el2UsingAArch32 := rfl
@[simp] theorem takeHypTrap_sctlrSED (ec : Nat) : (s.takeHypTrap ec).sctlrSED = s.sctlrSED := rfl
@[simp] theorem takeHypTrap_sctlrITD (ec : Nat) : (s.takeHypTrap ec).sctlrITD = s.sctlrITD := rfl
@[simp] theorem takeHypTrap_sctlrCP15BEN (ec : Nat) : (s.takeHypTrap ec).sctlrCP15BEN = s.sctlrCP15BEN := rfl
@[simp] theorem takeHypTrap_hypTrapEc (ec : Nat) : (s.takeHypTrap ec).hypTrapEc = some ec := rfl
@[simp] theorem takeHypTrap_regsLeft (ec : Nat) : (s.takeHypTrap ec).regsLeft = some s.regs := rfl
@[simp] theorem takeHypTrap_regions (ec : Nat) : (s.takeHypTrap ec).regions = s.regions := rfl
@[simp] theorem takeHypTrap_mem (ec : Nat) : (s.takeHypTrap ec).mem = s.mem := rfl
@[simp] theorem takeHypTrap_turns (ec : Nat) : (s.takeHypTrap ec).turns = s.turns := rfl
@[simp] theorem takeHypTrap_draws (ec : Nat) : (s.takeHypTrap ec).draws = s.draws := rfl

/-! ## setOutside -/

@[simp] theorem setOutside_cfg (o : Outside) : (s.setOutside o).cfg = s.cfg := rfl
@[simp] theorem setOutside_hsctlr (o : Outside) : (s.setOutside o).hsctlr = outsideHsctlr o s.hsctlr := rfl
@[simp] theorem setOutside_regs (o : Outside) : (s.setOutside o).regs = o.regs := rfl
@[simp] theorem setOutside_pc (o : Outside) : (s.setOutside o).pc = o.pc := rfl
@[simp] theorem setOutside_el (o : Outside) : (s.setOutside o).el = o.el := rfl
@[simp] theorem setOutside_iset (o : Outside) : (s.setOutside o).iset = o.iset := rfl
@[simp] theorem setOutside_pstateE (o : Outside) : (s.setOutside o).pstateE = o.pstateE := rfl
@[simp] theorem setOutside_ssbs (o : Outside) : (s.setOutside o).ssbs = (if s.cfg.featSSBS then o.ssbs else s.ssbs) := rfl
@[simp] theorem setOutside_itState (o : Outside) : (s.setOutside o).itState = o.itState := rfl
@[simp] theorem setOutside_afterIt (o : Outside) : (s.setOutside o).afterIt = (o.afterIt && o.itState.extractLsb' 0 4 != 0#4) := rfl
@[simp] theorem setOutside_scrNS (o : Outside) : (s.setOutside o).scrNS = o.scrNS := rfl
@[simp] theorem setOutside_hstrT1 (o : Outside) : (s.setOutside o).hstrT1 = o.hstrT1 := rfl
@[simp] theorem setOutside_hstrEl2T1 (o : Outside) : (s.setOutside o).hstrEl2T1 = o.hstrEl2T1 := rfl
@[simp] theorem setOutside_el2Enabled (o : Outside) : (s.setOutside o).el2Enabled = o.el2Enabled := rfl
@[simp] theorem setOutside_el2UsingAArch32 (o : Outside) : (s.setOutside o).el2UsingAArch32 = o.el2UsingAArch32 := rfl
@[simp] theorem setOutside_sctlrSED (o : Outside) : (s.setOutside o).sctlrSED = o.sctlrSED := rfl
@[simp] theorem setOutside_sctlrITD (o : Outside) : (s.setOutside o).sctlrITD = o.sctlrITD := rfl
@[simp] theorem setOutside_sctlrCP15BEN (o : Outside) : (s.setOutside o).sctlrCP15BEN = o.sctlrCP15BEN := rfl
@[simp] theorem setOutside_hypTrapEc (o : Outside) : (s.setOutside o).hypTrapEc = s.hypTrapEc := rfl
@[simp] theorem setOutside_regsLeft (o : Outside) : (s.setOutside o).regsLeft = s.regsLeft := rfl
@[simp] theorem setOutside_regions (o : Outside) : (s.setOutside o).regions = o.regions := rfl
@[simp] theorem setOutside_mem (o : Outside) : (s.setOutside o).mem = Memory.writeAll s.mem o.stores := rfl
@[simp] theorem setOutside_turns (o : Outside) : (s.setOutside o).turns = s.turns := rfl
@[simp] theorem setOutside_draws (o : Outside) : (s.setOutside o).draws = s.draws := rfl

/-! ## applyOutside: the fields that an entry to Hyp mode at its end does not touch -/

@[simp] theorem applyOutside_cfg (o : Outside) : (s.applyOutside o).cfg = s.cfg := by
  unfold State.applyOutside; split <;> rfl
@[simp] theorem applyOutside_scrNS (o : Outside) : (s.applyOutside o).scrNS = o.scrNS := by
  unfold State.applyOutside; split <;> rfl
@[simp] theorem applyOutside_hstrT1 (o : Outside) : (s.applyOutside o).hstrT1 = o.hstrT1 := by
  unfold State.applyOutside; split <;> rfl
@[simp] theorem applyOutside_hstrEl2T1 (o : Outside) : (s.applyOutside o).hstrEl2T1 = o.hstrEl2T1 := by
  unfold State.applyOutside; split <;> rfl
@[simp] theorem applyOutside_el2Enabled (o : Outside) : (s.applyOutside o).el2Enabled = o.el2Enabled := by
  unfold State.applyOutside; split <;> rfl
@[simp] theorem applyOutside_el2UsingAArch32 (o : Outside) : (s.applyOutside o).el2UsingAArch32 = o.el2UsingAArch32 := by
  unfold State.applyOutside; split <;> rfl
@[simp] theorem applyOutside_sctlrSED (o : Outside) : (s.applyOutside o).sctlrSED = o.sctlrSED := by
  unfold State.applyOutside; split <;> rfl
@[simp] theorem applyOutside_sctlrITD (o : Outside) : (s.applyOutside o).sctlrITD = o.sctlrITD := by
  unfold State.applyOutside; split <;> rfl
@[simp] theorem applyOutside_sctlrCP15BEN (o : Outside) : (s.applyOutside o).sctlrCP15BEN = o.sctlrCP15BEN := by
  unfold State.applyOutside; split <;> rfl
@[simp] theorem applyOutside_hypTrapEc (o : Outside) : (s.applyOutside o).hypTrapEc = s.hypTrapEc := by
  unfold State.applyOutside; split <;> rfl
@[simp] theorem applyOutside_regions (o : Outside) : (s.applyOutside o).regions = o.regions := by
  unfold State.applyOutside; split <;> rfl
@[simp] theorem applyOutside_mem (o : Outside) : (s.applyOutside o).mem = Memory.writeAll s.mem o.stores := by
  unfold State.applyOutside; split <;> rfl
@[simp] theorem applyOutside_turns (o : Outside) : (s.applyOutside o).turns = s.turns := by
  unfold State.applyOutside; split <;> rfl
@[simp] theorem applyOutside_draws (o : Outside) : (s.applyOutside o).draws = s.draws := by
  unfold State.applyOutside; split <;> rfl

/-! ## setEndian, barrier: updates under a condition -/

@[simp] theorem setEndian_cfg (h b : Bool) : (s.setEndian h b).cfg = s.cfg := by cases h <;> rfl
@[simp] theorem setEndian_hsctlr (h b : Bool) : (s.setEndian h b).hsctlr = s.hsctlr := by cases h <;> rfl
@[simp] theorem setEndian_regs (h b : Bool) : (s.setEndian h b).regs = s.regs := by cases h <;> rfl
@[simp] theorem setEndian_pc (h b : Bool) : (s.setEndian h b).pc = s.pc := by cases h <;> rfl
@[simp] theorem setEndian_el (h b : Bool) : (s.setEndian h b).el = s.el := by cases h <;> rfl
@[simp] theorem setEndian_iset (h b : Bool) : (s.setEndian h b).iset = s.iset := by cases h <;> rfl
@[simp] theorem setEndian_pstateE (h b : Bool) : (s.setEndian h b).pstateE = if h then b else s.pstateE := by
  cases h <;> rfl
@[simp] theorem setEndian_ssbs (h b : Bool) : (s.setEndian h b).ssbs = s.ssbs := by cases h <;> rfl
@[simp] theorem setEndian_itState (h b : Bool) : (s.setEndian h b).itState = s.itState := by cases h <;> rfl
@[simp] theorem setEndian_afterIt (h b : Bool) : (s.setEndian h b).afterIt = s.afterIt := by cases h <;> rfl
@[simp] theorem setEndian_scrNS (h b : Bool) : (s.setEndian h b).scrNS = s.scrNS := by cases h <;> rfl
@[simp] theorem setEndian_hstrT1 (h b : Bool) : (s.setEndian h b).hstrT1 = s.hstrT1 := by cases h <;> rfl
@[simp] theorem setEndian_hstrEl2T1 (h b : Bool) : (s.setEndian h b).hstrEl2T1 = s.hstrEl2T1 := by cases h <;> rfl
@[simp] theorem setEndian_el2Enabled (h b : Bool) : (s.setEndian h b).el2Enabled = s.el2Enabled := by cases h <;> rfl
@[simp] theorem setEndian_el2UsingAArch32 (h b : Bool) : (s.setEndian h b).el2UsingAArch32 = s.el2UsingAArch32 := by cases h <;> rfl
@[simp] theorem setEndian_sctlrSED (h b : Bool) : (s.setEndian h b).sctlrSED = s.sctlrSED := by cases h <;> rfl
@[simp] theorem setEndian_sctlrITD (h b : Bool) : (s.setEndian h b).sctlrITD = s.sctlrITD := by cases h <;> rfl
@[simp] theorem setEndian_sctlrCP15BEN (h b : Bool) : (s.setEndian h b).sctlrCP15BEN = s.sctlrCP15BEN := by cases h <;> rfl
@[simp] theorem setEndian_hypTrapEc (h b : Bool) : (s.setEndian h b).hypTrapEc = s.hypTrapEc := by cases h <;> rfl
@[simp] theorem setEndian_regsLeft (h b : Bool) : (s.setEndian h b).regsLeft = s.regsLeft := by cases h <;> rfl
@[simp] theorem setEndian_regions (h b : Bool) : (s.setEndian h b).regions = s.regions := by cases h <;> rfl
@[simp] theorem setEndian_mem (h b : Bool) : (s.setEndian h b).mem = s.mem := by cases h <;> rfl
@[simp] theorem setEndian_turns (h b : Bool) : (s.setEndian h b).turns = s.turns := by cases h <;> rfl
@[simp] theorem setEndian_draws (h b : Bool) : (s.setEndian h b).draws = s.draws := by cases h <;> rfl
@[simp] theorem barrier_cfg (b : Barrier) (h : Bool) : (s.barrier b h).cfg = s.cfg := by
  cases b <;> cases h <;> rfl
@[simp] theorem barrier_hsctlr (b : Barrier) (h : Bool) :
    (s.barrier b h).hsctlr = if b = .isb ∧ h = true then s.hsctlr.synchronise else s.hsctlr := by
  cases b <;> cases h <;> rfl
@[simp] theorem barrier_regs (b : Barrier) (h : Bool) : (s.barrier b h).regs = s.regs := by
  cases b <;> cases h <;> rfl
@[simp] theorem barrier_pc (b : Barrier) (h : Bool) : (s.barrier b h).pc = s.pc := by
  cases b <;> cases h <;> rfl
@[simp] theorem barrier_el (b : Barrier) (h : Bool) : (s.barrier b h).el = s.el := by
  cases b <;> cases h <;> rfl
@[simp] theorem barrier_iset (b : Barrier) (h : Bool) : (s.barrier b h).iset = s.iset := by
  cases b <;> cases h <;> rfl
@[simp] theorem barrier_pstateE (b : Barrier) (h : Bool) : (s.barrier b h).pstateE = s.pstateE := by
  cases b <;> cases h <;> rfl
@[simp] theorem barrier_ssbs (b : Barrier) (h : Bool) : (s.barrier b h).ssbs = s.ssbs := by
  cases b <;> cases h <;> rfl
@[simp] theorem barrier_itState (b : Barrier) (h : Bool) : (s.barrier b h).itState = s.itState := by
  cases b <;> cases h <;> rfl
@[simp] theorem barrier_afterIt (b : Barrier) (h : Bool) : (s.barrier b h).afterIt = s.afterIt := by
  cases b <;> cases h <;> rfl
@[simp] theorem barrier_scrNS (b : Barrier) (h : Bool) : (s.barrier b h).scrNS = s.scrNS := by
  cases b <;> cases h <;> rfl
@[simp] theorem barrier_hstrT1 (b : Barrier) (h : Bool) : (s.barrier b h).hstrT1 = s.hstrT1 := by
  cases b <;> cases h <;> rfl
@[simp] theorem barrier_hstrEl2T1 (b : Barrier) (h : Bool) : (s.barrier b h).hstrEl2T1 = s.hstrEl2T1 := by
  cases b <;> cases h <;> rfl
@[simp] theorem barrier_el2Enabled (b : Barrier) (h : Bool) : (s.barrier b h).el2Enabled = s.el2Enabled := by
  cases b <;> cases h <;> rfl
@[simp] theorem barrier_el2UsingAArch32 (b : Barrier) (h : Bool) : (s.barrier b h).el2UsingAArch32 = s.el2UsingAArch32 := by
  cases b <;> cases h <;> rfl
@[simp] theorem barrier_sctlrSED (b : Barrier) (h : Bool) : (s.barrier b h).sctlrSED = s.sctlrSED := by
  cases b <;> cases h <;> rfl
@[simp] theorem barrier_sctlrITD (b : Barrier) (h : Bool) : (s.barrier b h).sctlrITD = s.sctlrITD := by
  cases b <;> cases h <;> rfl
@[simp] theorem barrier_sctlrCP15BEN (b : Barrier) (h : Bool) : (s.barrier b h).sctlrCP15BEN = s.sctlrCP15BEN := by
  cases b <;> cases h <;> rfl
@[simp] theorem barrier_hypTrapEc (b : Barrier) (h : Bool) : (s.barrier b h).hypTrapEc = s.hypTrapEc := by
  cases b <;> cases h <;> rfl
@[simp] theorem barrier_regsLeft (b : Barrier) (h : Bool) : (s.barrier b h).regsLeft = s.regsLeft := by
  cases b <;> cases h <;> rfl
@[simp] theorem barrier_regions (b : Barrier) (h : Bool) : (s.barrier b h).regions = s.regions := by
  cases b <;> cases h <;> rfl
@[simp] theorem barrier_mem (b : Barrier) (h : Bool) : (s.barrier b h).mem = s.mem := by
  cases b <;> cases h <;> rfl
@[simp] theorem barrier_turns (b : Barrier) (h : Bool) : (s.barrier b h).turns = s.turns := by
  cases b <;> cases h <;> rfl
@[simp] theorem barrier_draws (b : Barrier) (h : Bool) : (s.barrier b h).draws = s.draws := by
  cases b <;> cases h <;> rfl

/-! ## Reads that depend on one field only -/

theorem readReg_of_regs {s t : State} (h : t.regs = s.regs) (r : BitVec 4) : t.readReg r = s.readReg r := by
  simp [State.readReg, h]

theorem readByte_of_mem {s t : State} (h : t.mem = s.mem) (a : Word) : t.readByte a = s.readByte a := by
  simp [State.readByte, h]

/-- `R[t]` exists for every number but 15 (R40, R84). -/
theorem readReg_isSome {t : BitVec 4} (h : t ≠ 15#4) : ∃ v, s.readReg t = some v := by
  have h15 : t.toNat < 15 := by
    have := t.isLt
    have : t.toNat ≠ 15 := fun e => h (BitVec.eq_of_toNat_eq (by simpa using e))
    omega
  exact ⟨s.regs[t.toNat], by simp [State.readReg, h15]⟩

/-- A register written reads as the value written. -/
theorem readReg_writeReg_same {t : BitVec 4} (h : t ≠ 15#4) (v : Word) : (s.writeReg t v).readReg t = some v := by
  have h15 : t.toNat < 15 := by
    have := t.isLt
    have : t.toNat ≠ 15 := fun e => h (BitVec.eq_of_toNat_eq (by simpa using e))
    omega
  simp [State.readReg, State.writeReg, h15]

/-- Writing one register leaves every other. -/
theorem readReg_writeReg_other {t r : BitVec 4} (h : r ≠ t) (v : Word) :
    (s.writeReg t v).readReg r = s.readReg r := by
  have hn : t.toNat ≠ r.toNat := fun e => h (BitVec.eq_of_toNat_eq e.symm)
  simp [State.readReg, State.writeReg, hn]

end Sys2Proof.Machine
end

