-- ==== Sys2Proof/Laws/Exec.lean ====
section
/-! SUPPORT. What the shared operations and exec can answer, each said once. -/

namespace Sys2Proof.Machine

/-- Outside an IT block the IT state stays. -/
theorem itAdvance_outside {s : State} (h : s.inItBlock = false) : itAdvance s.itState = s.itState := by
  have : s.itState.extractLsb' 0 4 = 0#4 := by simpa [State.inItBlock] using h
  simp [itAdvance, this]

/-- An IT state that is advanced moves on as a T32 instruction moves it. -/
theorem itMovesOn_t32 {s t : State} {i : Instr} (hi : i.iset = .t32) (h : t.itState = itAdvance s.itState) :
    ItMovesOn i s t := by
  refine ⟨fun h' => ?_, fun _ _ => h⟩
  rcases h' with h' | h'
  · rw [hi] at h'; cases h'
  · rw [h, itAdvance_outside h']

/-- An IT state that stays moves on as an A32 instruction moves it. -/
theorem itMovesOn_a32 {s t : State} {i : Instr} (hi : i.iset = .a32) (h : t.itState = s.itState) : ItMovesOn i s t :=
  ⟨fun _ => h, fun h' => by rw [hi] at h'; cases h'⟩

/-- Outside an IT block a 4-byte T32 instruction moves on as an A32 one does. -/
theorem pastT32_outside {s : State} (h : s.inItBlock = false) : s.pastT32 4#32 = s.pastA32 := by
  simp [State.pastT32, State.pastA32, itAdvance_outside h]

/-- Not after an IT, R103 makes nothing UNDEFINED. -/
theorem afterItFault_none {s : State} (h : s.afterIt = false) (hw1 : Half) : s.afterItFault hw1 = none := by
  simp [State.afterItFault, h]

/-- With the IT restrictions not in force, R103 makes nothing UNDEFINED. -/
theorem afterItFault_enabled {s : State} (h : s.itDisabled 0 = false) (hw1 : Half) : s.afterItFault hw1 = none := by
  simp [State.afterItFault, h]

/-- Where R103 does not apply to a T32 instruction, it makes nothing UNDEFINED. -/
theorem afterItFault_notUnderIt {s : State} {i : Instr} (h : NotUnderIt s i) (hi : i.iset = .t32) (hw1 : Half) :
    s.afterItFault hw1 = none := by
  rcases h with h | h | ⟨h, h'⟩ | ⟨h, h'⟩
  · rw [hi] at h; cases h
  · exact afterItFault_none h hw1
  · exact afterItFault_enabled (by simp [State.itDisabled, h, h']) hw1
  · exact afterItFault_enabled (by simp [State.itDisabled, h, h']) hw1

/-- `After_IT_at_EL2`: the fault of R103 to R105. -/
theorem afterItFault_some {s : State} {hw1 : Half} (ha : s.afterIt = true) (hc : inItdClass hw1 = true)
    (hd : s.itDisabled 0 = true) :
    s.afterItFault hw1 = some (.undefinedAfterIt (Config.freeItWidth s.draws)
      (reportedAddress s.pc (Config.freeItWidth s.draws))) := by
  simp [State.afterItFault, ha, hc, hd]

/-- An admitted MRC is the access check before the read. -/
theorem exec_mrc {s : State} {i : Instr} {rt : BitVec 4} (h : AdmittedMrc s i rt) :
    exec i s = s.withAccess (.next (s.writeReg rt s.readHsctlr).pastA32) := by
  rcases h with ⟨rfl, h15⟩ | ⟨rfl, h13, h15, hb, ha⟩
  · simp [exec, execMrcA32, always, admittedA32, h15]
  · have hb' : (s.writeReg rt s.readHsctlr).inItBlock = false := by simpa [State.inItBlock] using hb
    simp [exec, execMrcT32, afterItFault_none ha, hb, admittedT32, h13, h15, pastT32_outside hb']

/-- An admitted MCR is the access check before the write. -/
theorem exec_mcr {s : State} {i : Instr} {rt : BitVec 4} (h : AdmittedMcr s i rt) :
    ∃ v, s.readReg rt = some v ∧ exec i s = s.withAccess (.next (s.writeHsctlr v).pastA32) := by
  rcases h with ⟨rfl, h15⟩ | ⟨rfl, h13, h15, hb, ha⟩
  · obtain ⟨v, hv⟩ := readReg_isSome s h15
    exact ⟨v, hv, by simp [exec, execMcrA32, always, hv]⟩
  · obtain ⟨v, hv⟩ := readReg_isSome s h15
    refine ⟨v, hv, ?_⟩
    have hb' : (s.writeHsctlr v).inItBlock = false := by simpa [State.inItBlock] using hb
    simp [exec, execMcrT32, afterItFault_none ha, hb, admittedT32, h13, h15, hv, pastT32_outside hb']

/-- An access that answers a next state was trapped to Hyp mode or allowed. -/
theorem withAccess_next {s t : State} {go : Result State} (h : s.withAccess go = .next t) :
    (s.accessCheck = .trapToHypAArch32 ∧ t = s.takeHypTrap trapEc) ∨ (s.accessCheck = .allow ∧ go = .next t) := by
  simp only [State.withAccess] at h
  split at h
  · cases h
  · cases h
  · next hv => cases h; exact .inl ⟨hv, rfl⟩
  · next hv => exact .inr ⟨hv, h⟩

/-- Everything an instruction can leave behind when it completes. -/
inductive ExecEffect (s : State) : Instr → State → Prop where
  | hypTrap {i} (h : s.accessCheck = .trapToHypAArch32) : ExecEffect s i (s.takeHypTrap trapEc)
  | mrcA32 {cond rt} (h : s.accessCheck = .allow) :
      ExecEffect s (.mrcA32 cond rt) (s.writeReg rt s.readHsctlr).pastA32
  | mrcT32 {rt} (h : s.accessCheck = .allow) :
      ExecEffect s (.mrcT32 rt) ((s.writeReg rt s.readHsctlr).pastT32 4#32)
  | mcrA32 {rt v} (h : s.accessCheck = .allow) (hv : s.readReg rt = some v) :
      ExecEffect s (.mcrA32 always rt) (s.writeHsctlr v).pastA32
  | mcrT32 {rt v} (h : s.accessCheck = .allow) (hv : s.readReg rt = some v) :
      ExecEffect s (.mcrT32 rt) ((s.writeHsctlr v).pastT32 4#32)
  | setendA32 {big} : ExecEffect s (.setendA32 big) (s.setEndian true big).pastA32
  | setendT16 {big} : ExecEffect s (.setendT16 big) ((s.setEndian s.itCondHolds big).pastT32 2#32)
  | it {firstcond mask} : ExecEffect s (.itT16 firstcond mask) (s.openItBlock firstcond mask)
  | itSkipped {firstcond mask} : ExecEffect s (.itT16 firstcond mask) (s.pastT32 2#32)
  | barrierA32 {i} (b : Barrier) (holds : Bool) : ExecEffect s i (s.barrier b holds).pastA32
  | barrierT32 {i} (b : Barrier) (holds : Bool) : ExecEffect s i ((s.barrier b holds).pastT32 4#32)
  | outside {i} (o : Outside) : ExecEffect s i (s.applyOutside o)

/-- An instruction outside the spec that answers a next state has a free effect, and passed every check of its accesses. -/
theorem outsideInstr_next {s t : State} {admits : Access → Bool} {o : OutsideInstr}
    (h : s.outsideInstr admits o = .next t) :
    s.firstAccessFault 8 (o.accesses.filter admits) = none ∧
      t = s.applyOutside (storesWithin (o.accesses.filter admits) o.effect) := by
  simp only [State.outsideInstr] at h
  split at h
  · cases h
  · next hf => cases h; exact ⟨hf, rfl⟩

/-- Outside Hyp mode no check of HSCTLR stops an access. -/
theorem accessFault_notHyp {s : State} (h : s.atHyp = false) (k : Nat) (a : Access) : s.accessFault k a = none := by
  simp [State.accessFault, State.alignmentFails, State.multipleTraps, h]

/-- A check of R67, R68 or R72 stops an access with one of their two faults. -/
theorem accessFault_some {s : State} {k : Nat} {a : Access} {f : Fault} (h : s.accessFault k a = some f) :
    f = .dataAbortAlignment ∨ f = .stage1Alignment := by
  simp only [State.accessFault] at h
  split at h
  · cases h
  · cases h; exact .inl rfl
  · cases h; exact .inr rfl
  · split at h <;> cases h
    · exact .inl rfl
    · exact .inr rfl

/-- No access of the list is stopped if none is, whatever is drawn. -/
theorem firstAccessFault_none {s : State} {l : List Access} (h : ∀ k, ∀ a ∈ l, s.accessFault k a = none) (k : Nat) :
    s.firstAccessFault k l = none := by
  induction l generalizing k with
  | nil => rfl
  | cons a rest ih =>
    simp only [State.firstAccessFault, h k a (by simp)]
    exact ih (fun k b hb => h k b (List.mem_cons_of_mem _ hb)) _

/-- The fault of a list of accesses is one of the two. -/
theorem firstAccessFault_some {s : State} {l : List Access} {k : Nat} {f : Fault}
    (h : s.firstAccessFault k l = some f) : f = .dataAbortAlignment ∨ f = .stage1Alignment := by
  induction l generalizing k with
  | nil => cases h
  | cons a rest ih =>
    simp only [State.firstAccessFault] at h
    split at h
    · next f' hf => cases h; exact accessFault_some hf
    · exact ih h

/-- An instruction outside the spec completes if no check stops an access that it may make. -/
theorem outsideInstr_completes {s : State} {admits : Access → Bool}
    (h : ∀ k a, admits a = true → s.accessFault k a = none) (o : OutsideInstr) :
    s.outsideInstr admits o = .next (s.applyOutside (storesWithin (o.accesses.filter admits) o.effect)) := by
  have : s.firstAccessFault 8 (o.accesses.filter admits) = none :=
    firstAccessFault_none (fun k a ha => h k a (List.mem_filter.1 ha).2) 8
  simp only [State.outsideInstr, this]

/-- So does an instruction of a class that R103 does not make UNDEFINED. -/
theorem classInstr_completes {s : State} {hw1 : Half} {admits : Access → Bool} (hf : s.afterItFault hw1 = none)
    (h : ∀ k a, admits a = true → s.accessFault k a = none) : ∃ t, s.classInstr hw1 admits = .next t := by
  simp only [State.classInstr, hf, outsideInstr_completes h]
  exact ⟨_, rfl⟩

/-- The accesses of K4 are plain. -/
theorem isLiteralLoad_plain {a : Access} (h : isLiteralLoad a = true) : a.cls = .plain := by
  unfold isLiteralLoad at h
  split at h
  · assumption
  · cases h

/-- The accesses of K4 store nothing. -/
theorem isLiteralLoad_storesTo {a : Access} (h : isLiteralLoad a = true) (x : Word) : storesTo a x = false := by
  unfold isLiteralLoad at h
  split at h
  · next ho _ => simp only [storesTo, ho]
  · cases h

theorem classInstr_next {s t : State} {hw1 : Half} {admits : Access → Bool} (h : s.classInstr hw1 admits = .next t) :
    ∃ o, t = s.applyOutside o := by
  simp only [State.classInstr] at h
  split at h
  · cases h
  · exact ⟨_, (outsideInstr_next h).2⟩

theorem barrierA32_next {s t : State} {b : Barrier} {cond : BitVec 4} (h : s.barrierA32 b cond = .next t) :
    t = (s.barrier b (s.condHolds cond)).pastA32 := by
  simp only [State.barrierA32] at h
  split at h <;> cases h
  rfl

theorem barrierT32_next {s t : State} {b : Barrier} {hw1 : Half} (h : s.barrierT32 b hw1 = .next t) :
    t = (s.barrier b s.itCondHolds).pastT32 4#32 := by
  simp only [State.barrierT32] at h
  split at h
  · cases h
  · split at h <;> cases h
    rfl

/-- exec answers a next state only as `ExecEffect` says. -/
theorem exec_cases {i : Instr} {s t : State} (h : exec i s = .next t) : ExecEffect s i t := by
  cases i with
  | mrcA32 cond rt =>
    simp only [exec, execMrcA32] at h
    split at h
    · cases h
    · split at h
      · cases h
      · rcases withAccess_next h with ⟨hv, rfl⟩ | ⟨hv, hg⟩
        · exact .hypTrap hv
        · cases hg; exact .mrcA32 hv
  | mcrA32 cond rt =>
    simp only [exec, execMcrA32] at h
    split at h
    · cases h
    · next hc =>
      split at h
      · cases h
      · next v hr =>
        rcases withAccess_next h with ⟨hv, rfl⟩ | ⟨hv, hg⟩
        · exact .hypTrap hv
        · cases hg
          have : cond = always := by simpa using hc
          subst this
          exact .mcrA32 hv hr
  | mrcT32 rt =>
    simp only [exec, execMrcT32] at h
    split at h
    · cases h
    · split at h
      · cases h
      · split at h
        · cases h
        · rcases withAccess_next h with ⟨hv, rfl⟩ | ⟨hv, hg⟩
          · exact .hypTrap hv
          · cases hg; exact .mrcT32 hv
  | mcrT32 rt =>
    simp only [exec, execMcrT32] at h
    split at h
    · cases h
    · split at h
      · cases h
      · split at h
        · cases h
        · next v hr =>
          split at h
          · cases h
          · rcases withAccess_next h with ⟨hv, rfl⟩ | ⟨hv, hg⟩
            · exact .hypTrap hv
            · cases hg; exact .mcrT32 hv hr
  | setendA32 big =>
    simp only [exec, execSetendA32] at h
    split at h <;> cases h
    exact .setendA32
  | setendT16 big =>
    simp only [exec, execSetendT16] at h
    split at h
    · cases h
    · split at h <;> cases h
      exact .setendT16
  | itT16 firstcond mask =>
    simp only [exec, execItT16] at h
    split at h
    · cases h
    · split at h
      · cases h
      · split at h <;> cases h
        · exact .it
        · exact .itSkipped
  | itdK1 hw1 hw2 => obtain ⟨o, rfl⟩ := classInstr_next h; exact .outside o
  | itdK2 hw1 => obtain ⟨o, rfl⟩ := classInstr_next h; exact .outside o
  | itdK3 hw1 => obtain ⟨o, rfl⟩ := classInstr_next h; exact .outside o
  | itdK4 hw1 => obtain ⟨o, rfl⟩ := classInstr_next h; exact .outside o
  | itdK5 hw1 => obtain ⟨o, rfl⟩ := classInstr_next h; exact .outside o
  | itdK6 hw1 => obtain ⟨o, rfl⟩ := classInstr_next h; exact .outside o
  | cp15dmbA32 cond rt => rw [barrierA32_next h]; exact .barrierA32 _ _
  | cp15dmbT32 rt => rw [barrierT32_next h]; exact .barrierT32 _ _
  | cp15dsbA32 cond rt => rw [barrierA32_next h]; exact .barrierA32 _ _
  | cp15dsbT32 rt => rw [barrierT32_next h]; exact .barrierT32 _ _
  | cp15isbA32 cond rt => rw [barrierA32_next h]; exact .barrierA32 _ _
  | cp15isbT32 rt => rw [barrierT32_next h]; exact .barrierT32 _ _

/-- No instruction blames the configuration. -/
theorem exec_legal (i : Instr) (s : State) : exec i s ≠ .refused .illegalConfiguration := by
  have access : ∀ (s : State) go, go ≠ .refused .illegalConfiguration →
      s.withAccess go ≠ .refused .illegalConfiguration := by
    intro s go h
    simp only [State.withAccess]
    split <;> simp_all
  have cls : ∀ (s : State) hw1 admits, s.classInstr hw1 admits ≠ .refused .illegalConfiguration := by
    intro s hw1 admits
    simp only [State.classInstr, State.outsideInstr]
    split
    · simp
    · split <;> simp
  cases i <;>
    simp only [exec, execMrcA32, execMrcT32, execMcrA32, execMcrT32, execSetendA32, execSetendT16, execItT16,
      execCp15dmbA32, execCp15dmbT32, execCp15dsbA32, execCp15dsbT32, execCp15isbA32, execCp15isbT32,
      State.barrierA32, State.barrierT32] <;>
    (repeat' (first | exact cls _ _ _ | (apply access; simp) | split)) <;> simp

/-- A data access that answers a next state wrote registers, the bytes of one store, or both. -/
theorem runAccess_next {s t : State} {a : Access} (h : s.runAccess a = .next t) :
    ∃ regs b bs, t = { s with regs := regs, mem := Memory.writeBytes s.mem b bs } := by
  simp only [State.runAccess] at h
  split at h
  · cases h
  · split at h
    · cases h
    · simp only [State.moveData] at h
      split at h
      · split at h <;> cases h
        exact ⟨_, 0#32, [], rfl⟩
      · split at h <;> cases h
        · simp only [State.storeExclusive]
          split
          · exact ⟨_, _, _, rfl⟩
          · exact ⟨_, 0#32, [], rfl⟩
        all_goals exact ⟨_, _, _, rfl⟩

/-- What an effect of the machine around leaves, whether it ends in an entry to Hyp mode or not. -/
theorem applyOutside_cases (s : State) (o : Outside) :
    s.applyOutside o = (s.setOutside o).takeExceptionToHyp ∨ s.applyOutside o = s.setOutside o := by
  unfold State.applyOutside
  split
  · exact .inl rfl
  · exact .inr rfl

/-- An effect of the machine around writes neither `S` nor what is UNKNOWN of it. -/
theorem applyOutside_stored (s : State) (o : Outside) :
    (s.applyOutside o).hsctlr.stored = s.hsctlr.stored ∧ (s.applyOutside o).hsctlr.unknown = s.hsctlr.unknown := by
  rcases applyOutside_cases s o with h | h <;> rw [h] <;> simp

/-- An entry to Hyp mode has the process state of R124 to R126. -/
theorem takeExceptionToHyp_enters (s : State) : EntersHypMode s s.hsctlr s.takeExceptionToHyp :=
  ⟨rfl, rfl, rfl, fun h => by simp [h, State.eff], fun h => by simp [h]⟩

/-- So does the end of an effect of the machine around that enters Hyp mode, by the fields as it leaves them. -/
theorem applyOutside_enters {s : State} {o : Outside} (h : s.entersHyp o = true) :
    EntersHypMode s (outsideHsctlr o s.hsctlr) (s.applyOutside o) := by
  rw [State.applyOutside, if_pos h]
  exact ⟨rfl, rfl, rfl, fun h => by simp [h, State.eff, State.draw], fun h => by simp [h]⟩

/-- An instruction outside the spec changes neither `S` nor the configuration. -/
theorem outsideInstr_sameS {s t : State} {admits : Access → Bool} {o : OutsideInstr}
    (h : s.outsideInstr admits o = .next t) : SameS s t ∧ t.cfg = s.cfg := by
  obtain ⟨-, rfl⟩ := outsideInstr_next h
  exact ⟨applyOutside_stored s _, applyOutside_cfg s _⟩

/-- Without FEAT_SSBS no effect of the machine around writes PSTATE.SSBS (R126). -/
theorem applyOutside_ssbs {s : State} (h0 : s.cfg.featSSBS = false) (o : Outside) :
    (s.applyOutside o).ssbs = s.ssbs := by
  rcases applyOutside_cases s o with h | h <;> rw [h] <;> simp [h0]

/-- An effect of the machine around leaves the mark of the instruction after an IT inside an IT block only. -/
theorem applyOutside_afterIt (s : State) (o : Outside) (ha : (s.applyOutside o).afterIt = true) :
    (s.applyOutside o).inItBlock = true := by
  rcases applyOutside_cases s o with h | h <;> rw [h] at ha ⊢
  · cases ha
  · simp only [setOutside_afterIt, Bool.and_eq_true] at ha
    exact ha.2

/-- Everything a turn of the PE can leave behind: the effect of the instruction it fetched, or, for bytes of no row, a
free effect. -/
theorem runInstruction_next {s t : State} (h : s.runInstruction = .next t) :
    (∃ i, s.fetch = .instr i ∧ exec i s = .next t) ∨ (s.fetch = .outside ∧ ∃ o, t = s.applyOutside o) := by
  simp only [State.runInstruction] at h
  cases hf : s.fetch with
  | instr i => rw [hf] at h; exact .inl ⟨i, rfl, h⟩
  | outside => rw [hf] at h; exact .inr ⟨rfl, _, (outsideInstr_next h).2⟩
  | fault f => rw [hf] at h; cases h

/-- In a legal configuration, at the PE's turn, a step runs an instruction. -/
theorem step_instruction {s : State} (hl : s.cfg.legal = true)
    (ht : s.turns = [] ∨ ∃ rest, s.turns = .instruction :: rest) :
    step s = ({ s with draws := s.draws + 1, turns := s.turns.tail } : State).runInstruction := by
  rcases ht with ht | ⟨rest, ht⟩
  · have : ({ s with draws := s.draws + 1, turns := s.turns.tail } : State) = s.tick := by
      cases s; simp only at ht; subst ht; rfl
    rw [this]
    simp only [step, hl, ht, if_true]
  · simp only [step, hl, ht, if_true, List.tail]
    rfl

/-- A step that answers a next state took the turn of the machine around, or ran an instruction. -/
theorem step_cases {s t : State} (h : step s = .next t) :
    s.cfg.legal = true ∧
      ((∃ e rest, s.turns = .around e :: rest ∧ ({ s.tick with turns := rest } : State).runEvent e = .next t) ∨
       (∃ rest, (s.turns = .instruction :: rest ∨ (s.turns = [] ∧ rest = [])) ∧
         ({ s.tick with turns := rest } : State).runInstruction = .next t)) := by
  simp only [step] at h
  split at h
  · next hl =>
    refine ⟨hl, ?_⟩
    split at h
    · next ht =>
      refine .inr ⟨[], .inr ⟨ht, rfl⟩, ?_⟩
      have e : ({ s.tick with turns := [] } : State) = s.tick := by
        cases s; simp only [State.tick] at ht ⊢; simp only [ht]
      rw [e]; exact h
    · next rest ht => exact .inr ⟨rest, .inl ht, h⟩
    · next e rest ht => exact .inl ⟨e, rest, ht, h⟩
  · cases h

/-- A fetched instruction was decoded from bytes at the pc. -/
theorem fetch_decoded {s : State} {i : Instr} (h : s.fetch = .instr i) :
    ∃ n bs rest, Memory.readBytes s.mem s.pc n = some bs ∧ decode s.iset bs = .ok (i, rest) := by
  simp only [State.fetch] at h
  split at h
  · cases h
  · split at h
    · cases h
    · next n hn =>
      split at h
      · cases h
      · split at h
        · cases h
        · next bs hb =>
          simp only [State.decodeFetched] at h
          split at h
          · next j rest hd => cases h; exact ⟨n, bs, rest, hb, hd⟩
          · cases h

end Sys2Proof.Machine
end

