-- ==== Sys2Proof/Laws/Memory.lean ====
section
/-! SUPPORT. Memory: read after write, and that every memory operation keeps the canonical form. -/

namespace Sys2Proof.Machine

/-- A byte written reads as the value written. -/
theorem read_write_same (m : Memory) (a : Nat) (b : Byte) : Memory.read (Memory.write m a b) a = some b := by
  induction m with
  | nil => simp [Memory.write, Memory.read]
  | cons cell rest ih =>
    obtain ⟨k, c⟩ := cell
    simp only [Memory.write]
    split
    · simp [Memory.read]
    · split
      · simp [Memory.read]
      · have : k ≠ a := fun h => by simp_all
        simp [Memory.read, this, ih]

/-- Writing one byte leaves every other. -/
theorem read_write_other (m : Memory) {a a' : Nat} (h : a' ≠ a) (b : Byte) :
    Memory.read (Memory.write m a b) a' = Memory.read m a' := by
  induction m with
  | nil => simp [Memory.write, Memory.read, h.symm]
  | cons cell rest ih =>
    obtain ⟨k, c⟩ := cell
    simp only [Memory.write]
    split
    · simp [Memory.read, h.symm]
    · split
      · next h2 => subst h2; simp [Memory.read, h.symm]
      · simp [Memory.read, ih]

/-- A list of cells is rising when its tail is and its head is below the tail's addresses. -/
theorem rising_cons {a : Nat} {b : Byte} {m : Memory} :
    Memory.rising ((a, b) :: m) = true ↔ (∀ cell ∈ m, a < cell.1) ∧ Memory.rising m = true := by
  induction m generalizing a b with
  | nil => simp [Memory.rising]
  | cons cell rest ih =>
    obtain ⟨k, c⟩ := cell
    have step : Memory.rising ((a, b) :: (k, c) :: rest) = true ↔ a < k ∧ Memory.rising ((k, c) :: rest) = true := by
      simp [Memory.rising]
    rw [step]
    constructor
    · rintro ⟨h1, h2⟩
      refine ⟨?_, h2⟩
      intro x hx
      rcases List.mem_cons.1 hx with rfl | hx
      · exact h1
      · exact lt_trans h1 ((ih.1 h2).1 x hx)
    · rintro ⟨h1, h2⟩
      exact ⟨h1 (k, c) (by simp), h2⟩

/-- The addresses after a write are those before and the written one. -/
theorem mem_write {m : Memory} {a : Nat} {b : Byte} {cell : Host.Cell} (h : cell ∈ Memory.write m a b) :
    cell.1 = a ∨ cell ∈ m := by
  induction m with
  | nil => simp_all [Memory.write]
  | cons head rest ih =>
    obtain ⟨k, c⟩ := head
    simp only [Memory.write] at h
    split at h
    · rcases List.mem_cons.1 h with rfl | h
      · exact .inl rfl
      · exact .inr h
    · split at h
      · rcases List.mem_cons.1 h with rfl | h
        · exact .inl rfl
        · exact .inr (List.mem_cons_of_mem _ h)
      · rcases List.mem_cons.1 h with rfl | h
        · exact .inr (by simp)
        · rcases ih h with h | h
          · exact .inl h
          · exact .inr (List.mem_cons_of_mem _ h)

/-- A write keeps the addresses rising. -/
theorem rising_write {m : Memory} (h : Memory.rising m = true) (a : Nat) (b : Byte) :
    Memory.rising (Memory.write m a b) = true := by
  induction m with
  | nil => rfl
  | cons head rest ih =>
    obtain ⟨k, c⟩ := head
    have hk := rising_cons.1 h
    simp only [Memory.write]
    split
    · next hlt =>
      refine rising_cons.2 ⟨?_, h⟩
      intro x hx
      rcases List.mem_cons.1 hx with rfl | hx
      · exact hlt
      · exact lt_trans hlt (hk.1 x hx)
    · next hnlt =>
      split
      · next heq => subst heq; exact rising_cons.2 hk
      · next hne =>
        refine rising_cons.2 ⟨?_, ih hk.2⟩
        intro x hx
        rcases mem_write hx with hx | hx
        · rw [hx]; omega
        · exact hk.1 x hx

/-- A write inside the address space keeps the canonical form. -/
theorem wf_write {m : Memory} (h : Memory.wf m = true) {a : Nat} (ha : a < 2 ^ 32) (b : Byte) :
    Memory.wf (Memory.write m a b) = true := by
  simp only [Memory.wf, Bool.and_eq_true, List.all_eq_true, decide_eq_true_eq] at h ⊢
  refine ⟨rising_write h.1 a b, ?_⟩
  intro x hx
  rcases mem_write hx with hx | hx
  · rw [hx]; exact ha
  · exact h.2 x hx

/-- Writing bytes upwards keeps the canonical form. -/
theorem wf_writeBytes {m : Memory} (h : Memory.wf m = true) (a : Word) (bs : List Byte) :
    Memory.wf (Memory.writeBytes m a bs) = true := by
  induction bs generalizing m a with
  | nil => exact h
  | cons b bs ih => exact ih (wf_write h a.isLt b) _

/-- Stores of single bytes keep the canonical form. -/
theorem wf_writeAll {m : Memory} (h : Memory.wf m = true) (stores : List (Word × Byte)) :
    Memory.wf (Memory.writeAll m stores) = true := by
  induction stores generalizing m with
  | nil => exact h
  | cons st rest ih =>
    obtain ⟨a, b⟩ := st
    exact ih (wf_write h a.isLt b)

/-- A byte outside the written ones reads as before. -/
theorem read_writeBytes_other (m : Memory) (a : Word) (bs : List Byte) (x : Word)
    (h : ∀ n, n < bs.length → x ≠ a + BitVec.ofNat 32 n) :
    Memory.read (Memory.writeBytes m a bs) x.toNat = Memory.read m x.toNat := by
  induction bs generalizing m a with
  | nil => rfl
  | cons b bs ih =>
    have h0 : x ≠ a := by simpa using h 0 (by simp)
    have hrest : ∀ n, n < bs.length → x ≠ a + 1#32 + BitVec.ofNat 32 n := by
      intro n hn
      have := h (n + 1) (by simpa using hn)
      intro e
      apply this
      rw [e, BitVec.add_assoc]
      congr 1
      apply BitVec.eq_of_toNat_eq
      simp [BitVec.toNat_add, BitVec.toNat_ofNat, Nat.add_comm]
    have hx : x.toNat ≠ a.toNat := fun e => h0 (BitVec.eq_of_toNat_eq e)
    simp only [Memory.writeBytes]
    rw [ih _ _ hrest, read_write_other _ hx]

/-- A byte that none of some single-byte stores names reads as before. -/
theorem read_writeAll_other (m : Memory) (stores : List (Word × Byte)) (x : Word) (h : ∀ st ∈ stores, st.1 ≠ x) :
    Memory.read (Memory.writeAll m stores) x.toNat = Memory.read m x.toNat := by
  induction stores generalizing m with
  | nil => rfl
  | cons st rest ih =>
    obtain ⟨a, b⟩ := st
    simp only [Memory.writeAll]
    rw [ih _ (fun st hs => h st (List.mem_cons_of_mem _ hs)), read_write_other]
    exact fun e => h (a, b) (by simp) (BitVec.eq_of_toNat_eq e.symm)

/-- In the canonical form equal reads are equal memories. -/
theorem memory_ext {m m' : Memory} (h : Memory.rising m = true) (h' : Memory.rising m' = true)
    (hr : ∀ a, Memory.read m a = Memory.read m' a) : m = m' := by
  have absent : ∀ {m : Memory} {a : Nat}, (∀ cell ∈ m, a < cell.1) → Memory.read m a = none := by
    intro m a hm
    induction m with
    | nil => rfl
    | cons cell rest ih =>
      obtain ⟨k, c⟩ := cell
      have : k ≠ a := (hm (k, c) (by simp)).ne'
      simp [Memory.read, this, ih (fun x hx => hm x (List.mem_cons_of_mem _ hx))]
  induction m generalizing m' with
  | nil =>
    cases m' with
    | nil => rfl
    | cons cell rest => obtain ⟨k, c⟩ := cell; simpa [Memory.read] using hr k
  | cons cell rest ih =>
    obtain ⟨k, c⟩ := cell
    cases m' with
    | nil => simpa [Memory.read] using hr k
    | cons cell' rest' =>
      obtain ⟨k', c'⟩ := cell'
      have hk := rising_cons.1 h
      have hk' := rising_cons.1 h'
      have hkk : k = k' := by
        rcases lt_trichotomy k k' with hlt | heq | hgt
        · have e := hr k
          rw [absent (m := (k', c') :: rest') (fun x hx => by
            rcases List.mem_cons.1 hx with rfl | hx
            · exact hlt
            · exact lt_trans hlt (hk'.1 x hx))] at e
          simp [Memory.read] at e
        · exact heq
        · have e := hr k'
          rw [absent (m := (k, c) :: rest) (fun x hx => by
            rcases List.mem_cons.1 hx with rfl | hx
            · exact hgt
            · exact lt_trans hgt (hk.1 x hx))] at e
          simp [Memory.read] at e
      subst hkk
      have hc : c = c' := by simpa [Memory.read] using hr k
      subst hc
      congr 1
      apply ih hk.2 hk'.2
      intro a
      by_cases ha : k = a
      · subst ha
        rw [absent hk.1, absent hk'.1]
      · simpa [Memory.read, ha] using hr a

end Sys2Proof.Machine
end

