-- ==== Sys2Proof/Laws/PerInstr.lean ====
section
/-! SUPPORT. The family EncodeLength of LAWS.json: how many bytes the encoding of each instruction has. -/

namespace Sys2Proof.Laws.EncodeLength

open Sys2Proof Sys2Proof.Machine

/-- A32 instructions have 4 bytes; a well-formed T32 instruction has 4 when R88 makes its first halfword the first half of a
32-bit one, else 2. -/
def Statement (i : Instr) : Prop :=
  i.wellFormed = true →
    (encode i).length = match i.iset with
      | .a32 => 4
      | .t32 => if isWide (firstHalfOf i) then 4 else 2

/-- A halfword is what its bytes stand for. -/
theorem halfOfBytes_bytesOfHalf (h : Half) : halfOfBytes (h.extractLsb' 0 8) (h.extractLsb' 8 8) = h := by
  apply BitVec.eq_of_getLsbD_eq
  intro n hn
  rw [halfOfBytes, BitVec.getLsbD_append]
  by_cases h8 : n < 8
  · simp [h8]
  · simp [h8, show n - 8 < 8 by omega, show 8 + (n - 8) = n by omega]

/-- The first halfword of an instruction of one halfword. -/
theorem firstHalf_single {i : Instr} {h : Half} (e : encode i = bytesOfHalf h) : firstHalfOf i = h := by
  simp [firstHalfOf, e, bytesOfHalf, halfOfBytes_bytesOfHalf]

/-- A halfword of the classes K2 to K6 is not the first half of a 32-bit instruction: its bits 15:13 are not 111. -/
theorem narrow_of_bits {h : Half} (hb : h.getLsbD 15 = false ∨ h.getLsbD 14 = false) : isWide h = false := by
  have e : ∀ k : BitVec 5, k.getLsbD 4 = true → k.getLsbD 3 = true → h.extractLsb' 11 5 ≠ k := by
    rintro k h4 h3 rfl
    simp at h4 h3
    rcases hb with hb | hb <;> simp_all
  simp [isWide, e]

theorem mrcA32 (cond rt : BitVec 4) : Statement (.mrcA32 cond rt) := fun _ => rfl
theorem mcrA32 (cond rt : BitVec 4) : Statement (.mcrA32 cond rt) := fun _ => rfl
theorem mrcT32 (rt : BitVec 4) : Statement (.mrcT32 rt) := by revert rt; unfold Statement; decide
theorem mcrT32 (rt : BitVec 4) : Statement (.mcrT32 rt) := by revert rt; unfold Statement; decide
theorem setendA32 (big : Bool) : Statement (.setendA32 big) := fun _ => rfl
theorem setendT16 (big : Bool) : Statement (.setendT16 big) := by revert big; unfold Statement; decide
theorem itT16 (firstcond mask : BitVec 4) : Statement (.itT16 firstcond mask) := by
  intro _
  rw [firstHalf_single (h := itHalf firstcond mask) rfl, show isWide (itHalf firstcond mask) = false from by
    revert firstcond mask; decide]
  rfl

/-- The statement for an instruction of one halfword that no 32-bit instruction begins with. -/
theorem single {i : Instr} {h : Half} (hi : i.iset = .t32) (e : encode i = bytesOfHalf h)
    (hn : i.wellFormed = true → isWide h = false) : Statement i := by
  intro hw
  rw [hi]
  simp [firstHalf_single e, hn hw, e, bytesOfHalf]

theorem itdK1 (hw1 : Half) (hw2 : Option Half) : Statement (.itdK1 hw1 hw2) := by
  cases hw2 with
  | none => exact single rfl rfl fun hw => by simp [Instr.wellFormed] at hw; simp [hw]
  | some h2 =>
    intro hw
    simp only [Instr.wellFormed, Bool.and_eq_true] at hw
    have : firstHalfOf (.itdK1 hw1 (some h2)) = hw1 := by
      simp [firstHalfOf, encode, bytesOfHalf, halfOfBytes_bytesOfHalf]
    simp [Instr.iset, this, hw.1, encode, bytesOfHalf]

/-- A halfword that a mask and value put outside the 32-bit ones. -/
theorem narrow_of_mask {h m v : Half} {n : Nat} (hn : n = 15 ∨ n = 14) (hm : m.getLsbD n = true) (hv : v.getLsbD n = false)
    (e : h &&& m = v) : isWide h = false := by
  have : h.getLsbD n = false := by
    have := congrArg (fun w => BitVec.getLsbD w n) e
    simpa [hm, hv] using this
  rcases hn with rfl | rfl
  · exact narrow_of_bits (.inl this)
  · exact narrow_of_bits (.inr this)

theorem itdK2 (hw1 : Half) : Statement (.itdK2 hw1) := single rfl rfl fun hw => by
  simp only [Instr.wellFormed, isK2, Bool.and_eq_true, beq_iff_eq] at hw
  exact narrow_of_mask (n := 14) (.inr rfl) rfl rfl hw.1.1
theorem itdK3 (hw1 : Half) : Statement (.itdK3 hw1) := single rfl rfl fun hw => by
  simp only [Instr.wellFormed, isK3, beq_iff_eq] at hw
  exact narrow_of_mask (n := 14) (.inr rfl) rfl rfl hw
theorem itdK4 (hw1 : Half) : Statement (.itdK4 hw1) := single rfl rfl fun hw => by
  simp only [Instr.wellFormed, isK4, beq_iff_eq] at hw
  exact narrow_of_mask (n := 15) (.inl rfl) rfl rfl hw
theorem itdK5 (hw1 : Half) : Statement (.itdK5 hw1) := single rfl rfl fun hw => by
  simp only [Instr.wellFormed, isK5, Bool.and_eq_true, beq_iff_eq] at hw
  exact narrow_of_mask (n := 15) (.inl rfl) rfl rfl hw.1
theorem itdK6 (hw1 : Half) : Statement (.itdK6 hw1) := single rfl rfl fun hw => by
  simp only [Instr.wellFormed, isK6, Bool.and_eq_true, beq_iff_eq] at hw
  exact narrow_of_mask (n := 15) (.inl rfl) rfl rfl hw.1.1
theorem cp15dmbA32 (cond rt : BitVec 4) : Statement (.cp15dmbA32 cond rt) := fun _ => rfl
theorem cp15dmbT32 (rt : BitVec 4) : Statement (.cp15dmbT32 rt) := by revert rt; unfold Statement; decide
theorem cp15dsbA32 (cond rt : BitVec 4) : Statement (.cp15dsbA32 cond rt) := fun _ => rfl
theorem cp15dsbT32 (rt : BitVec 4) : Statement (.cp15dsbT32 rt) := by revert rt; unfold Statement; decide
theorem cp15isbA32 (cond rt : BitVec 4) : Statement (.cp15isbA32 cond rt) := fun _ => rfl
theorem cp15isbT32 (rt : BitVec 4) : Statement (.cp15isbT32 rt) := by revert rt; unfold Statement; decide

end Sys2Proof.Laws.EncodeLength
end

