-- ==== Sys2Proof/Tests/Slice0.lean ====
section
/-! SUPPORT. Tests from the spec's vectors (spec file 95) and from words written out by hand, the smoke test of WellFormed,
and for each statement a witness that its hypotheses can be met together. -/

namespace Sys2Proof.Tests

open Sys2Proof Sys2Proof.Machine

/-! ## States for the tests: nothing UNKNOWN, pending or stale, so that no draw is used -/

/-- `S` with every bit known and synchronised. -/
def known (s : Word) : Hsctlr := ⟨s, 0#32, 0#32, 0#32⟩

/-- At EL2 in CFG_FULL, the value `s` in `S`. -/
def atEL2 (s : Word) : State := { State.reset with hsctlr := known s }

/-- At a level, with the inputs of the vectors A1 to A18: `EL2Enabled()`, FEAT_AA64EL2, `ELUsingAArch32(EL2)`, HSTR_EL2.T1,
HSTR.T1, SCR.NS. -/
def atLevel (el : EL) (en f64 a32 t64 t32 ns : Bool) : State :=
  { atEL2 0x18#32 with
    cfg := { Config.full with featAA64EL2 := f64 }
    el := el, el2Enabled := en, el2UsingAArch32 := a32, hstrEl2T1 := t64, hstrT1 := t32, scrNS := ns }

/-- `s` in T32, in the block of IT EQ with one instruction, the next instruction being the one after the IT. -/
def afterItEq (s : State) : State := { s with iset := .t32, itState := 0x08#8, afterIt := true }

/-- `s` in configuration `c`. -/
def inCfg (c : Config) (s : State) : State := { s with cfg := c }

/-- `s` with one value in every register. -/
def withRegs (v : Word) (s : State) : State := { s with regs := Vector.replicate 15 v }

/-- `s` with the addresses from 0 up to 255 of one memory type, executable and writable or not. -/
def withRegion (ty : MemType) (write : Bool) (s : State) : State :=
  { s with regions := [{ base := 0, size := 256, execute := true, write := write, memType := ty }] }

/-! ## WellFormed refuses ill-formed terms -/

theorem test_wf_cond : (Instr.mrcA32 0xF#4 0#4).wellFormed = false ∧ (Instr.cp15isbA32 0xF#4 0#4).wellFormed = false := by
  decide
theorem test_wf_mask : (Instr.itT16 0#4 0#4).wellFormed = false := by decide
/-- The first half of a 32-bit instruction without its second half. -/
theorem test_wf_k1_short : (Instr.itdK1 0xE800#16 none).wellFormed = false := by decide
/-- A 16-bit halfword with a second half. -/
theorem test_wf_k1_long : (Instr.itdK1 0xDF00#16 (some 0#16)).wellFormed = false := by decide
/-- The words of MRC HSCTLR, of CP15ISB: rows of their own. -/
theorem test_wf_k1_row : (Instr.itdK1 0xEE91#16 (some 0x0F10#16)).wellFormed = false ∧
    (Instr.itdK1 0xEE07#16 (some 0x0F95#16)).wellFormed = false := by decide
/-- Halfwords of SETEND and IT are rows of their own in K2; 0x9800 is in no class. -/
theorem test_wf_k2 : (Instr.itdK2 0xB650#16).wellFormed = false ∧ (Instr.itdK2 0xBF08#16).wellFormed = false ∧
    (Instr.itdK2 0x9800#16).wellFormed = false := by decide
/-- G27: 0xA800 is outside K3. -/
theorem test_wf_k3 : (Instr.itdK3 0xA800#16).wellFormed = false := by decide
theorem test_wf_k4 : (Instr.itdK4 0x5000#16).wellFormed = false := by decide
/-- G29: 0x4FFF is in K4 before K5; G42: 0x4770 is in no class. -/
theorem test_wf_k5 : (Instr.itdK5 0x4FFF#16).wellFormed = false ∧ (Instr.itdK5 0x4770#16).wellFormed = false := by decide
/-- G39: 0x44FF is in K5 before K6; G40: 0x4407 is in no class. -/
theorem test_wf_k6 : (Instr.itdK6 0x44FF#16).wellFormed = false ∧ (Instr.itdK6 0x4407#16).wellFormed = false := by decide

/-! ## Decoding: words written out from the layouts of R82, R83, R85, R86 -/

/-- cond 1110, 1110, opc1 100, L 1, CRn 0001, Rt 0010, coproc 1111, opc2 000, 1, CRm 0000 (E3). -/
theorem test_decode_mrcA32 :
    decodeA32 0b1110_1110_100_1_0001_0010_1111_000_1_0000#32 = some (.mrcA32 14#4 2#4) := by decide
/-- E9: cond 0000 decodes, and R84 refuses it later. -/
theorem test_decode_mcrA32 :
    decodeA32 0b0000_1110_100_0_0001_0001_1111_000_1_0000#32 = some (.mcrA32 0#4 1#4) := by decide
/-- hw1 11101110 100 1 0001, hw2 0010 1111 000 1 0000 (E17: bytes 91 EE 10 2F). -/
theorem test_decode_mrcT32 : decode .t32 [0x91#8, 0xEE#8, 0x10#8, 0x2F#8] = .ok (.mrcT32 2#4, []) := by decide
/-- E18: bytes 81 EE 10 1F, and bytes after it. -/
theorem test_decode_mcrT32 : decode .t32 [0x81#8, 0xEE#8, 0x10#8, 0x1F#8, 7#8] = .ok (.mcrT32 1#4, [7#8]) := by decide
/-- E23. -/
theorem test_decode_setendA32 : decodeA32 0b1111_0001_0000_0001_0000_00_0_0_0000_0000#32 = some (.setendA32 false) := by
  decide
/-- E25: 1011 0110 0101 E 000. -/
theorem test_decode_setendT16 : decode .t32 [0x50#8, 0xB6#8] = .ok (.setendT16 false, []) := by decide
/-- E28, and E31: 0xBF00 is not an IT. -/
theorem test_decode_itT16 : decode .t32 [0x04#8, 0xBF#8] = .ok (.itT16 0#4 4#4, []) ∧
    decode .t32 [0x00#8, 0xBF#8] = .ok (.itdK2 0xBF00#16, []) := by decide
/-- G17 and G20. -/
theorem test_decode_itdK1 : decode .t32 [0x00#8, 0xDF#8] = .ok (.itdK1 0xDF00#16 none, []) ∧
    decode .t32 [0x00#8, 0xF0#8, 0x34#8, 0x12#8] = .ok (.itdK1 0xF000#16 (some 0x1234#16), []) := by decide
/-- G23. -/
theorem test_decode_itdK2 : decode .t32 [0x00#8, 0xB5#8] = .ok (.itdK2 0xB500#16, []) := by decide
/-- G26. -/
theorem test_decode_itdK3 : decode .t32 [0xFF#8, 0xA7#8] = .ok (.itdK3 0xA7FF#16, []) := by decide
/-- G28. -/
theorem test_decode_itdK4 : decode .t32 [0x00#8, 0x48#8] = .ok (.itdK4 0x4800#16, []) := by decide
/-- G30. -/
theorem test_decode_itdK5 : decode .t32 [0x78#8, 0x44#8] = .ok (.itdK5 0x4478#16, []) := by decide
/-- G35. -/
theorem test_decode_itdK6 : decode .t32 [0x87#8, 0x44#8] = .ok (.itdK6 0x4487#16, []) := by decide
/-- E34: opc1 000, L 0, CRn 0111, Rt 0000, coproc 1111, opc2 101, 1, CRm 1010. -/
theorem test_decode_cp15dmbA32 :
    decodeA32 0b1110_1110_000_0_0111_0000_1111_101_1_1010#32 = some (.cp15dmbA32 14#4 0#4) := by decide
theorem test_decode_cp15dmbT32 : decode .t32 [0x07#8, 0xEE#8, 0xBA#8, 0x3F#8] = .ok (.cp15dmbT32 3#4, []) := by decide
/-- E33. -/
theorem test_decode_cp15dsbA32 : decodeA32 0xEE070F9A#32 = some (.cp15dsbA32 14#4 0#4) := by decide
theorem test_decode_cp15dsbT32 : decode .t32 [0x07#8, 0xEE#8, 0x9A#8, 0x0F#8] = .ok (.cp15dsbT32 0#4, []) := by decide
/-- E32. -/
theorem test_decode_cp15isbA32 : decodeA32 0xEE070F95#32 = some (.cp15isbA32 14#4 0#4) := by decide
/-- E35. -/
theorem test_decode_cp15isbT32 : decode .t32 [0x07#8, 0xEE#8, 0x95#8, 0x0F#8] = .ok (.cp15isbT32 0#4, []) := by decide
/-- E10 to E15: the neighbouring points are not HSCTLR. -/
theorem test_decode_not_hsctlr :
    [0xEE910F30#32, 0xEE110F10#32, 0xEE900F10#32, 0xEE910F11#32, 0xEE910E10#32, 0xEE910F00#32].map decodeA32 =
      [none, none, none, none, none, none] := by decide
/-- G40 to G48, G27: halfwords in no class. -/
theorem test_no_class :
    [0xA800#16, 0x4407#16, 0x4480#16, 0x4770#16, 0x4608#16, 0x1840#16, 0x2000#16, 0x6800#16, 0x9800#16, 0x4000#16].all
      (fun h => !inItdClass h) = true := by decide
/-- The spelling of section 7 of spec file 30 (R80). -/
theorem test_asm : sysMoveAsm true hsctlrSelector 0#4 = "MRC p15, 4, r0, c1, c0, 0" := by decide
/-- Opcode table words: cond 1110 is read as T32, another condition as A32 (log 20). -/
theorem test_table_words : decodeTableWord 32 0xEE912F10 = some (.mrcT32 2#4) ∧
    decodeTableWord 32 0x0E912F10 = some (.mrcA32 0#4 2#4) ∧ decodeTableWord 32 0xF1010200 = some (.setendA32 true) ∧
    decodeTableWord 16 0xBF08 = some (.itT16 0#4 8#4) ∧ decodeTableWord 16 0xC000 = some (.itdK1 0xC000#16 none) := by
  decide

/-! ## The register: Part 2 and Part 3 of the vectors -/

theorem test_masks_minimal : ctrlMask .minimal = 0x40081007#32 ∧ res1Mask .minimal = 0x30C50918#32 ∧
    res0Mask .minimal = 0x8F32E640#32 ∧ razwiMask .minimal = 0x80#32 ∧ raowiMask .minimal = 0x20#32 := by decide
theorem test_masks_others : ctrlMask .full = 0xC20811BF#32 ∧ res1Mask .bigEnd = 0x32C50918#32 ∧
    res0Mask .v80 = 0x8D32E640#32 ∧ ctrlMask .v80 = 0x420811A7#32 := by decide
/-- W6 and W7. -/
theorem test_write_hardwired : writeMasked .full 0#32 0x5A5A5A5A#32 = 0x4208101A#32 ∧
    readMasked .full 0x4208101A#32 = 0x72CD181A#32 ∧ writeMasked .full 0xFFFFFFFF#32 0#32 = 0x3DF7EE40#32 := by decide
/-- W22 and W21. -/
theorem test_write_stored : writeMasked { Config.minimal with resPolicy := .stored } 0xFFFFFFFF#32 0#32 = 0xA0#32 ∧
    readMasked { Config.minimal with resPolicy := .stored } 0xA5A5A505#32 = 0xA5A5A525#32 := by decide
/-- Z2 with u all ones, and Z8's draw mask. -/
theorem test_reset_values :
    readMasked .full ((Hsctlr.reset { Config.full with resetDSSBS := true, resetTE := true, resetEE := true }).value
      0xFFFFFFFF#32) = 0xF2C50818#32 ||| 0x000801A2#32 ∧
    (Hsctlr.reset { Config.full with resPolicy := .stored }).unknown = 0x3DFFEFE2#32 := by decide
/-- W25 and H6: under `stored` a fixed EE reads as stored and is 1 all the same. -/
theorem test_eff_fixed : (known 0#32).eff { Config.bigEnd with resPolicy := .stored } 0#32 .ee = true ∧
    readMasked { Config.bigEnd with resPolicy := .stored } 0#32 = 0x20#32 := by decide

/-! ## Access: Part 4, the worked examples of R91 and R92, P2 to P4 -/

/-- A5, A7, A9, A12. -/
theorem test_access_el1 : (atLevel .el1 true false true false true true).accessCheck = .trapToHypAArch32 ∧
    (atLevel .el1 true true false true false true).accessCheck = .trapToEL2AArch64 ∧
    (atLevel .el1 true true false false true true).accessCheck = .undefined ∧
    (atLevel .el1 false true true true true true).accessCheck = .undefined := by decide
/-- A4, A14, A16, A17. -/
theorem test_access_others : (atLevel .el0 true true true true true true).accessCheck = .undefined ∧
    (atLevel .el2 false false false false false false).accessCheck = .allow ∧
    (atLevel .el3 true true true true true false).accessCheck = .undefined ∧
    (atLevel .el3 true true true true true true).accessCheck = .allow := by decide
/-- The worked example of R91. -/
theorem test_mrcA32 : ∃ t, exec (.mrcA32 14#4 0#4) (atEL2 0x1005#32) = .next t ∧
    t.readReg 0#4 = some 0x30C51805#32 ∧ t.pc = 4#32 := by
  refine ⟨_, rfl, ?_, rfl⟩
  show some (atEL2 0x1005#32).readHsctlr = _
  rw [readHsctlr_known rfl]
  rfl
/-- R84 refuses t = 13 in T32 (E20). -/
theorem test_mrcT32 : exec (.mrcT32 13#4) (atEL2 0#32) = .refused .registerNotAdmitted := rfl
/-- The worked example of R92 (W1). -/
theorem test_mcrA32 : ∃ t, exec (.mcrA32 14#4 1#4) (withRegs 0xFFFFFFFF#32 (atEL2 0#32)) = .next t ∧
    t.hsctlr.stored = 0xC20811BF#32 ∧ t.readReg 1#4 = some 0xFFFFFFFF#32 := ⟨_, rfl, by decide, rfl⟩
/-- P5, step 1. -/
theorem test_mcrT32 : ∃ t, exec (.mcrT32 1#4) (withRegs 0x30C508B8#32 (atEL2 0x38#32)) = .next t ∧
    t.hsctlr.stored = 0xB8#32 ∧ t.hsctlr.pending = 0x80#32 := ⟨_, rfl, by decide, by decide⟩
/-- P2, run a: the Hyp Trap, with `S` = 0x18. -/
theorem test_hyp_trap : ∃ t, exec (.mcrA32 14#4 1#4) (atLevel .el1 true true true false true false) = .next t ∧
    t.hypTrapEc = some 3 ∧ t.el = .el2 ∧ t.iset = .a32 ∧ t.pstateE = false ∧ t.ssbs = false ∧
    t.hsctlr.stored = 0x18#32 := ⟨_, rfl, rfl, rfl, by decide, by decide, by decide, rfl⟩
/-- P2, run c. -/
theorem test_aarch64_trap : exec (.mcrA32 14#4 1#4) (atLevel .el1 true true false true true false) =
    .fault (.aarch32SystemAccessTrap .el2 3) := rfl
/-- H2 and H5. -/
theorem test_entry : (atEL2 0xC2000000#32).takeExceptionToHyp.iset = .t32 ∧
    (atEL2 0xC2000000#32).takeExceptionToHyp.pstateE = true ∧ (atEL2 0xC2000000#32).takeExceptionToHyp.ssbs = true ∧
    (inCfg .bigEnd (atEL2 0#32)).takeExceptionToHyp.pstateE = true := by decide

/-! ## Gates: Part 7 -/

/-- G1 and G2. -/
theorem test_setendA32 : (∃ t, exec (.setendA32 true) (atEL2 0#32) = .next t ∧ t.pstateE = true ∧ t.pc = 4#32) ∧
    exec (.setendA32 true) (atEL2 0x100#32) = .fault .undefined := ⟨⟨_, rfl, rfl, rfl⟩, rfl⟩
/-- G3, and G4 in T32. -/
theorem test_setendT16 : exec (.setendT16 false) (atEL2 0x100#32) = .fault .undefined ∧
    exec (.setendT16 false) (inCfg .minimal (atEL2 0#32)) = .fault .undefined := ⟨rfl, rfl⟩
/-- G7 and G10. -/
theorem test_itT16 : (∃ t, exec (.itT16 0#4 8#4) (atEL2 0x80#32) = .next t ∧ t.itState = 0x08#8 ∧ t.afterIt = true) ∧
    exec (.itT16 0#4 0xC#4) (atEL2 0x80#32) = .fault .undefined := ⟨⟨_, rfl, rfl, rfl⟩, rfl⟩
/-- G6 and G12. -/
theorem test_it_enabled : (∃ t, exec (.itT16 0#4 0xC#4) (atEL2 0#32) = .next t) ∧
    (∃ t, exec (.itT16 0#4 0xC#4) (inCfg .minimal (atEL2 0x80#32)) = .next t) := ⟨⟨_, rfl⟩, ⟨_, rfl⟩⟩
/-- G17, G24, G25: Undefined after an IT with ITD = 1. -/
theorem test_class_k123 : (∃ w a, exec (.itdK1 0xDF00#16 none) (afterItEq (atEL2 0x80#32)) = .fault (.undefinedAfterIt w a)) ∧
    (∃ w a, exec (.itdK2 0xBFFF#16) (afterItEq (atEL2 0x80#32)) = .fault (.undefinedAfterIt w a)) ∧
    (∃ w a, exec (.itdK3 0xA000#16) (afterItEq (atEL2 0x80#32)) = .fault (.undefinedAfterIt w a)) :=
  ⟨⟨_, _, rfl⟩, ⟨_, _, rfl⟩, ⟨_, _, rfl⟩⟩
/-- G29, G30, G35. -/
theorem test_class_k456 : (∃ w a, exec (.itdK4 0x4FFF#16) (afterItEq (atEL2 0x80#32)) = .fault (.undefinedAfterIt w a)) ∧
    (∃ w a, exec (.itdK5 0x4478#16) (afterItEq (atEL2 0x80#32)) = .fault (.undefinedAfterIt w a)) ∧
    (∃ w a, exec (.itdK6 0x4487#16) (afterItEq (atEL2 0x80#32)) = .fault (.undefinedAfterIt w a)) :=
  ⟨⟨_, _, rfl⟩, ⟨_, _, rfl⟩, ⟨_, _, rfl⟩⟩
/-- With ITD = 0 K6 is allowed; at EL1 with SCTLR's ITD clear K1 is. -/
theorem test_class_enabled : (∃ t, exec (.itdK6 0x4487#16) (afterItEq (atEL2 0#32)) = .next t) ∧
    (∃ t, exec (.itdK1 0xDF00#16 none) (afterItEq (atLevel .el1 true true true true true true)) = .next t) :=
  ⟨classInstr_completes (s := afterItEq (atEL2 0#32)) (hw1 := 0x4487#16) rfl (fun _ _ h => by cases h),
    classInstr_completes (s := afterItEq (atLevel .el1 true true true true true true)) (hw1 := 0xDF00#16) rfl
      (fun k a _ => accessFault_notHyp rfl k a)⟩
/-- G52 and G53. -/
theorem test_cp15dmb : exec (.cp15dmbA32 14#4 0#4) (atEL2 0#32) = .fault .undefined ∧
    (∃ t, exec (.cp15dmbT32 0#4) (inCfg .minimal (atEL2 0#32)) = .next t ∧ t.pc = 4#32) := ⟨rfl, ⟨_, rfl, rfl⟩⟩
/-- G51. -/
theorem test_cp15dsb : exec (.cp15dsbA32 14#4 0#4) (atEL2 0#32) = .fault .undefined ∧
    (∃ t, exec (.cp15dsbT32 0#4) (atEL2 0x20#32) = .next t) := ⟨rfl, ⟨_, rfl⟩⟩
/-- G50 and G49: an enabled CP15ISB synchronises. -/
theorem test_cp15isb : exec (.cp15isbT32 0#4) (atEL2 0#32) = .fault .undefined ∧
    (∃ t, exec (.cp15isbA32 14#4 0#4) { atEL2 0x20#32 with hsctlr := ⟨0x20#32, 0#32, 0x80#32, 0#32⟩ } = .next t ∧
      t.hsctlr.pending = 0#32) := ⟨rfl, ⟨_, rfl, rfl⟩⟩

/-! ## Memory -/

/-- A write keeps the canonical form, and the bytes of a word store are in PSTATE.E's order (R70). -/
theorem test_store_big_endian : ∃ t,
    ({ withRegs 0x11223344#32 (atEL2 0#32) with pstateE := true } : State).runEvent
      (.access ⟨.plain, .store 3, .word, 0x100#32⟩) = .next t ∧ Memory.wf t.mem = true ∧
      t.readByte 0x100#32 = some 0x11#8 ∧ t.readByte 0x103#32 = some 0x44#8 := ⟨_, rfl, by decide, by decide, by decide⟩
/-- R67, R68, R72. -/
theorem test_access_faults :
    (atEL2 0x2#32).runEvent (.access ⟨.plain, .load 0, .word, 2#32⟩) = .fault .dataAbortAlignment ∧
    (atEL2 0#32).runEvent (.access ⟨.ordered, .load 0, .half, 1#32⟩) = .fault .dataAbortAlignment ∧
    (atEL2 0#32).runEvent (.access ⟨.exclusive 1, .load 2, .double 3, 4#32⟩) = .fault .dataAbortAlignment ∧
    (withRegion .deviceNGRE true (atEL2 0#32)).runEvent (.access ⟨.multiple, .load 0, .word, 4#32⟩) =
      .fault .stage1Alignment := ⟨rfl, rfl, rfl, rfl⟩
/-- Of 8 bytes R[t] has the lower four, each word in PSTATE.E's order (log 25). -/
theorem test_store_double : ∃ t, ({ atEL2 0#32 with regs := (Vector.replicate 15 0x11223344#32).set 5 0xAABBCCDD#32 } :
      State).runEvent (.access ⟨.plain, .store 3, .double 5, 0x100#32⟩) = .next t ∧
    t.readByte 0x100#32 = some 0x44#8 ∧ t.readByte 0x104#32 = some 0xDD#8 := ⟨_, rfl, by decide, by decide⟩
/-- An access of an instruction outside the table is checked: R67 with A = 1 (log 18). -/
theorem test_outside_access (o : Outside) : (atEL2 0x2#32).outsideInstr (fun _ => true)
    ⟨[⟨.plain, .load 0, .word, 0#32⟩, ⟨.multiple, .store 1, .word, 6#32⟩], o⟩ = .fault .dataAbortAlignment := rfl
/-- R65: WXN with M forbids a fetch from a writable address; R66: without M it does not. -/
theorem test_wxn : (withRegion .normal true (atEL2 0x80001#32)).permitFetch 0 0#32 = false ∧
    (withRegion .normal true (atEL2 0x80000#32)).permitFetch 0 0#32 = true := by decide

/-! ## Steps -/

/-- P1, offset B+0, right after reset: the step runs the MRC (T32 by log 20). -/
theorem test_step_mrc : ∃ t, step (State.reset.withFetchWord 32 0xEE910F10) = .next t ∧ t.pc = 4#32 ∧ t.draws = 1 :=
  ⟨_, rfl, rfl, rfl⟩
/-- A word of no row runs as an instruction outside the spec. -/
theorem test_step_no_row : (atEL2 0#32).decodeFetched [0#8, 0#8, 0#8, 0#8] = .outside := rfl
/-- An instruction, a write of SCTLR_EL2, an instruction: the second MRC reads what was written between (R13). -/
theorem test_turns : ∃ t u,
    step { (atEL2 0#32).withFetchWord 32 0xEE910F10 with
      turns := [.instruction, .around (.writeSctlrEl2 0x1005#32), .instruction] } = .next t ∧
      step t = .next u ∧ u.hsctlr.stored = 0x1005#32 ∧ u.turns = [.instruction] := ⟨_, _, rfl, rfl, rfl, rfl⟩
/-- P3, run b: at EL3 with SCR.NS 0. -/
theorem test_step_el3 : step ((atLevel .el3 true true true true true false).withFetchWord 32 0xEE811F10) =
    .fault .undefined := rfl
/-- R143: after a reset of a running machine, in T32 in an IT block before it, the first T32 MCR is admitted and allowed. -/
theorem test_reset_mcr : ∃ t u, (inCfg { Config.full with resetTE := true } (afterItEq (atEL2 0x80#32))).runEvent .warmReset =
    .next t ∧ t.iset = .t32 ∧ exec (.mcrT32 0#4) t = .next u := ⟨_, _, rfl, by decide, rfl⟩
/-- Right after reset nothing is in memory, so nothing runs (log 31). -/
theorem test_step_reset : step State.reset = .fault .unwrittenMemory := rfl

/-! ## Witnesses: states and operands that meet the hypotheses of each statement together -/

/-- An A32 MRC, an A32 MCR, a T32 MRC and a T32 MCR that R84 admits, at the ends of the range of t. -/
theorem admitted (s : State) (hb : s.inItBlock = false) (ha : s.afterIt = false) :
    AdmittedMrc s (.mrcA32 14#4 14#4) 14#4 ∧ AdmittedMcr s (.mcrA32 14#4 0#4) 0#4 ∧
      AdmittedMrc s (.mrcT32 12#4) 12#4 ∧ AdmittedMcr s (.mcrT32 14#4) 14#4 :=
  ⟨.inl ⟨rfl, by decide⟩, .inl ⟨rfl, by decide⟩, .inr ⟨rfl, by decide, by decide, hb, ha⟩,
    .inr ⟨rfl, by decide, by decide, hb, ha⟩⟩

theorem witness_DecodeOfEncode : (Instr.mrcA32 0#4 15#4).wellFormed = true ∧
    (Instr.itdK1 0xFFFF#16 (some 0xFFFF#16)).wellFormed = true ∧ (Instr.itdK6 0x4487#16).wellFormed = true := by decide

theorem witness_EncodeOfDecode :
    decode .t32 [0x08#8, 0xBF#8, 0x78#8, 0x44#8] = .ok (.itT16 0#4 8#4, [0x78#8, 0x44#8]) := by decide

theorem witness_HsctlrAccessBySelectorFields :
    ((0xEE910F10#32 : Word).extractLsb' 24 4 = 0b1110#4 ∧ (0xEE910F10#32 : Word).getLsbD 4 = true ∧
      (0xEE910F10#32 : Word).extractLsb' 28 4 ≠ 0b1111#4 ∧ decodeA32 0xEE910F10#32 = some (.mrcA32 14#4 0#4)) ∧
    ((0x0E81EF10#32 : Word).extractLsb' 24 4 = 0b1110#4 ∧ (0x0E81EF10#32 : Word).getLsbD 4 = true ∧
      (0x0E81EF10#32 : Word).extractLsb' 28 4 ≠ 0b1111#4 ∧ decodeA32 0x0E81EF10#32 = some (.mcrA32 0#4 14#4)) :=
  ⟨⟨rfl, rfl, by decide, by decide⟩, ⟨rfl, rfl, by decide, by decide⟩⟩

theorem witness_KindOfEachBit : (31 : Nat) < 32 ∧ Config.full.featSSBS = true ∧ Config.minimal.featSSBS = false ∧
    Config.full.featMixedEnd = true ∧ Config.bigEnd.featMixedEnd = false ∧ Config.bigEnd.featBigEnd = true ∧
    Config.minimal.featBigEnd = false ∧ Config.minimal.mixedEndEL2 = false ∧ Config.minimal.itdImplemented = false ∧
    Config.minimal.cp15benImplemented = false ∧ Config.minimal.featLSMAOC = false := by decide

theorem witness_MasksPartitionTheRegister : (ctrlMask .full).getLsbD 31 = true ∧ (res1Mask .full).getLsbD 29 = true ∧
    (res0Mask .full).getLsbD 6 = true ∧ (razwiMask .minimal).getLsbD 7 = true ∧
    (raowiMask .minimal).getLsbD 5 = true := by decide

theorem witness_EffectiveValueOfEachKind :
    (ctrlMask .full).getLsbD Field.dssbs.bit = true ∧ (known 0#32).settled .dssbs ∧
    (ctrlMask .full).getLsbD Field.wxn.bit = true ∧ ¬(Hsctlr.reset .full).settled .wxn ∧
    ¬({ known 0#32 with pending := 1#32 } : Hsctlr).settled .m ∧
    ¬({ known 0#32 with tlbStale := 8#32 } : Hsctlr).settled .ntlsmd ∧
    (res1Mask .bigEnd ||| raowiMask .bigEnd).getLsbD Field.ee.bit = true ∧
    (res0Mask .minimal ||| razwiMask .minimal).getLsbD Field.itd.bit = true :=
  ⟨rfl, rfl, rfl, by simp only [Hsctlr.settled]; decide, by simp only [Hsctlr.settled]; decide,
    by simp only [Hsctlr.settled]; decide, rfl, rfl⟩

theorem witness_ReadAndWriteByKindOfBit : (ctrlMask .full).getLsbD 31 = true ∧ (res0Mask .full).getLsbD 6 = true ∧
    (res1Mask .full).getLsbD 11 = true ∧ (razwiMask .minimal).getLsbD 7 = true ∧ (raowiMask .minimal).getLsbD 5 = true ∧
    Config.full.resPolicy = .hardwired ∧ { Config.full with resPolicy := .stored }.resPolicy = .stored := by decide

theorem witness_ReadWriteLaws : Config.full.resPolicy = .hardwired ∧
    0x30C5183D#32 &&& (res0Mask .full ||| razwiMask .full) = 0#32 ∧
    0x30C5183D#32 &&& (res1Mask .full ||| raowiMask .full) = res1Mask .full ||| raowiMask .full := by decide

theorem witness_WarmResetValueOfEachField :
    ([Field.dssbs, .te, .ee, .wxn, .i, .sed, .itd, .cp15ben, .lsmaoe, .ntlsmd, .c, .a, .m].all
      fun f => (ctrlMask .full).getLsbD f.bit) = true ∧
    Config.full.highestEL = .el2 ∧ { Config.full with highestEL := .el3 }.highestEL ≠ .el2 := by decide

theorem witness_ReservedBitsByPolicy : (res0Mask .full ||| res1Mask .full).getLsbD 29 = true ∧
    (res0Mask .minimal ||| res1Mask .minimal).getLsbD 31 = true ∧ Config.full.resPolicy = .hardwired ∧
    { Config.full with resPolicy := .stored }.resPolicy = .stored := by decide

theorem witness_FirstReadAfterReset : Config.full.highestEL = .el2 ∧ Config.full.resPolicy = .hardwired ∧
    Config.full.featSSBS = true ∧ Config.full.featMixedEnd = true ∧ Config.full.mixedEndEL2 = true ∧
    Config.full.itdImplemented = true ∧ Config.full.cp15benImplemented = true ∧ Config.full.featLSMAOC = true := by decide

theorem witness_SynchronisedFieldIsTheWrittenOne :
    (0x00080018#32 : Word) &&& ~~~(ctrlMask .full &&& tlbMask) = 0#32 ∧ (ctrlMask .full).getLsbD Field.m.bit = true ∧
    Field.m ≠ .wxn ∧ Field.m ≠ .lsmaoe ∧ Field.m ≠ .ntlsmd := by decide

theorem witness_InvalidatedFieldIsTheWrittenOne : (ctrlMask .full).getLsbD Field.wxn.bit = true ∧
    (ctrlMask .full).getLsbD Field.ntlsmd.bit = true := by decide

theorem witness_ChangedFieldIsADraw : (ctrlMask .full).getLsbD Field.wxn.bit = true ∧ (known 0x80000#32).settled .wxn ∧
    (0#32 : Word).getLsbD Field.wxn.bit ≠ (known 0x80000#32).stored.getLsbD Field.wxn.bit ∧
    (0xFFFFF#32 : Word).getLsbD Field.wxn.bit = (known 0x80000#32).stored.getLsbD Field.wxn.bit :=
  ⟨rfl, rfl, by decide, rfl⟩

/-- One state for each clause: A1, A4, A7, A5, A11, A15, A16, A17. -/
theorem witness_AccessCheckVerdicts :
    (inCfg { Config.full with featAA32EL2 := false } (atEL2 0#32)).cfg.featAA32EL2 = false ∧
    (atLevel .el0 true true true true true true).el = .el0 ∧
    (let s := atLevel .el1 true true false true false true
     s.cfg.featAA32EL2 = true ∧ s.el = .el1 ∧ s.el2Enabled = true ∧ s.cfg.featAA64EL2 = true ∧
      s.el2UsingAArch32 = false ∧ s.hstrEl2T1 = true) ∧
    (let s := atLevel .el1 true false true false true true
     s.el = .el1 ∧ s.el2Enabled = true ∧ s.el2UsingAArch32 = true ∧ s.hstrT1 = true) ∧
    (let s := atLevel .el1 true true true true false true
     s.el = .el1 ∧ ¬(s.el2Enabled = true ∧ s.cfg.featAA64EL2 = true ∧ s.el2UsingAArch32 = false ∧ s.hstrEl2T1 = true) ∧
      ¬(s.el2Enabled = true ∧ s.el2UsingAArch32 = true ∧ s.hstrT1 = true)) ∧
    (atLevel .el2 true true true true true true).el = .el2 ∧
    (atLevel .el3 true true true true true false).scrNS = false ∧
    (atLevel .el3 true true true true true true).scrNS = true := by decide

theorem witness_AbsentRegisterIsUndefined :
    let s := inCfg { Config.full with featAA32EL2 := false } (atEL2 0#32)
    s.cfg.featAA32EL2 = false ∧ AdmittedMrc s (.mrcT32 12#4) 12#4 ∧ AdmittedMcr s (.mcrA32 14#4 0#4) 0#4 :=
  ⟨rfl, (admitted _ rfl rfl).2.2.1, (admitted _ rfl rfl).2.1⟩

theorem witness_AbsentRegisterGovernsNothing :
    (inCfg { Config.full with featAA32EL2 := false } (atEL2 0#32)).cfg.featAA32EL2 = false := rfl

theorem witness_MrcReadsHsctlr : AdmittedMrc (atEL2 0#32) (.mrcA32 14#4 14#4) 14#4 ∧
    AdmittedMrc (atEL2 0#32) (.mrcT32 12#4) 12#4 ∧ (atEL2 0#32).accessCheck = .allow ∧
    (atLevel .el3 true true true true true true).accessCheck = .allow :=
  ⟨(admitted _ rfl rfl).1, (admitted _ rfl rfl).2.2.1, rfl, rfl⟩

theorem witness_McrWritesHsctlr : AdmittedMcr (atEL2 0#32) (.mcrA32 14#4 0#4) 0#4 ∧
    AdmittedMcr (atEL2 0#32) (.mcrT32 14#4) 14#4 ∧ (atEL2 0#32).accessCheck = .allow :=
  ⟨(admitted _ rfl rfl).2.1, (admitted _ rfl rfl).2.2.2, rfl⟩

theorem witness_RaisedAccessHasNoEffect :
    AdmittedMrc (atLevel .el0 true true true true true true) (.mrcA32 14#4 14#4) 14#4 ∧
    (atLevel .el0 true true true true true true).accessCheck = .undefined ∧
    (atLevel .el1 true true false true false true).accessCheck = .trapToEL2AArch64 ∧
    (atLevel .el1 true false true false true true).accessCheck = .trapToHypAArch32 :=
  ⟨(admitted _ rfl rfl).1, rfl, rfl, rfl⟩

theorem witness_MrcAfterMcrReadsTheValueWritten :
    ∃ s1 : State, (atEL2 0#32).hsctlr.unknown &&& ~~~writeMask (atEL2 0#32).cfg = 0#32 ∧
      AdmittedMcr (atEL2 0#32) (.mcrA32 14#4 0#4) 0#4 ∧ (atEL2 0#32).accessCheck = .allow ∧
      (atEL2 0#32).readReg 0#4 = some 0#32 ∧ exec (.mcrA32 14#4 0#4) (atEL2 0#32) = .next s1 ∧
      (let u : State := { s1 with el := .el3, scrNS := true, pc := 0x40#32 }
       u.cfg = s1.cfg ∧ u.hsctlr.stored = s1.hsctlr.stored ∧ u.hsctlr.unknown = s1.hsctlr.unknown ∧
        AdmittedMrc u (.mrcT32 12#4) 12#4 ∧ u.accessCheck = .allow) :=
  ⟨_, by decide, (admitted _ rfl rfl).2.1, rfl, rfl, rfl, rfl, rfl, rfl, (admitted _ rfl rfl).2.2.1, rfl⟩

theorem witness_OtherFormsAreRefused : (0#4 : BitVec 4) ≠ 0b1110#4 ∧
    (afterItEq (atEL2 0#32)).inItBlock = true ∧ NotUnderIt (afterItEq (atEL2 0#32)) (.mrcT32 0#4) ∧
    NotUnderIt (atEL2 0x80#32) (.mrcT32 13#4) ∧ AdmittedMrc (atEL2 0#32) (.mrcA32 14#4 14#4) 14#4 :=
  ⟨by decide, by decide, .inr (.inr (.inl ⟨rfl, rfl⟩)), .inr (.inl rfl), (admitted _ rfl rfl).1⟩

theorem witness_SettingItdInItBlockIsRefused :
    let s := withRegs 0x80#32 (afterItEq (atEL2 0#32))
    NotUnderIt s (.mcrT32 0#4) ∧ s.inItBlock = true ∧ s.atHyp = true ∧ s.cfg.itdImplemented = true ∧
      (0#4 : BitVec 4) ≠ 13#4 ∧ s.readReg 0#4 = some 0x80#32 ∧ (0x80#32 : Word).getLsbD 7 = true ∧
      s.hsctlr.stored.getLsbD 7 = false :=
  ⟨.inr (.inr (.inl ⟨rfl, rfl⟩)), by decide, rfl, rfl, by decide, by decide, rfl, rfl⟩

theorem witness_HypTrapEntersHypMode :
    let s := atLevel .el1 true false true false true true
    AdmittedMrc s (.mrcA32 14#4 14#4) 14#4 ∧ s.el = .el1 ∧ s.cfg.featAA32EL2 = true ∧ s.el2Enabled = true ∧
      s.el2UsingAArch32 = true ∧ s.hstrT1 = true ∧ s.cfg.featSSBS = true ∧ (inCfg .minimal s).cfg.featSSBS = false :=
  ⟨(admitted _ rfl rfl).1, rfl, rfl, rfl, rfl, rfl, rfl, rfl⟩

/-- The state of the third clause ends its instruction outside the spec, which makes no access, in a next state. -/
theorem witness_EntryToHypModeSetsProcessState (o : Outside) :
    let s := atLevel .el1 true false true false true true
    s.cfg.featAA32EL2 = true ∧ s.el2UsingAArch32 = true ∧ s.cfg.featSSBS = true ∧ (inCfg .minimal s).cfg.featSSBS = false ∧
      ({ o with exceptionToHyp := true } : Outside).exceptionToHyp = true ∧
      (({ o with el := .el2 } : Outside).el = .el2 ∧ s.el = .el1) ∧
      (∃ t, s.outsideInstr (fun _ => true) ⟨[], { o with exceptionToHyp := true }⟩ = .next t) ∧
      (atLevel .el1 true true false true true true).el2UsingAArch32 = false :=
  ⟨rfl, rfl, rfl, rfl, rfl, ⟨rfl, rfl⟩, ⟨_, rfl⟩, rfl⟩

theorem witness_AArch64TrapEndsTheStep :
    let s := atLevel .el1 true true false true false true
    AdmittedMcr s (.mcrT32 14#4) 14#4 ∧ s.el = .el1 ∧ s.cfg.featAA32EL2 = true ∧ s.cfg.featAA64EL2 = true ∧
      s.el2Enabled = true ∧ s.el2UsingAArch32 = false ∧ s.hstrEl2T1 = true :=
  ⟨(admitted _ rfl rfl).2.2.2, rfl, rfl, rfl, rfl, rfl, rfl⟩

theorem witness_EL0IsNeverTrapped :
    let s := atLevel .el0 true true true true true true
    AdmittedMrc s (.mrcT32 12#4) 12#4 ∧ s.el = .el0 := ⟨(admitted _ rfl rfl).2.2.1, rfl⟩

theorem witness_SetendIsGatedBySed : IsSetend (.setendA32 true) true ∧ IsSetend (.setendT16 false) false ∧
    NotUnderIt (atEL2 0#32) (.setendT16 false) ∧ (atEL2 0x100#32).eff 1 .sed = true ∧ (atEL2 0#32).eff 1 .sed = false ∧
    (inCfg .minimal (atEL2 0#32)).cfg.mixedEndEL2 = false :=
  ⟨.inl rfl, .inr rfl, .inr (.inl rfl), rfl, rfl, rfl⟩

theorem witness_SetendCompletes : IsSetend (.setendT16 true) true ∧
    NotUnderIt (afterItEq (atEL2 0#32)) (.setendT16 true) ∧ NotUnderIt (atEL2 0#32) (.setendA32 true) ∧
    ((atEL2 0#32).atHyp = true → (atEL2 0#32).eff 1 .sed = false) ∧
    (let s := atLevel .el1 true true true true true true
     NotUnderIt s (.setendT16 true) ∧ s.atHyp = false ∧ s.sctlrSED = false) ∧
    ((afterItEq (atEL2 0#32)).inItBlock = true ∧ (atEL2 0#32).inItBlock = false) ∧
    (let s : State := { atEL2 0#32 with itState := 0xE8#8 }
     NotUnderIt s (.setendT16 true) ∧ s.inItBlock = true ∧ s.itState.extractLsb' 4 4 = 0b1110#4) :=
  ⟨.inr rfl, .inr (.inr (.inl ⟨rfl, rfl⟩)), .inl rfl, fun _ => rfl, ⟨.inr (.inl rfl), by decide, rfl⟩, ⟨by decide, rfl⟩,
    .inr (.inl rfl), by decide, by decide⟩

theorem witness_ItIsGatedByItd : NotUnderIt (atEL2 0x80#32) (.itT16 0#4 4#4) ∧ (atEL2 0#32).atHyp = true ∧
    (atEL2 0x80#32).eff 1 .itd = true ∧ (4#4 : BitVec 4) ≠ 0b1000#4 ∧ (atEL2 0#32).eff 1 .itd = false :=
  ⟨.inr (.inl rfl), rfl, rfl, by decide, rfl⟩

/-- Outside a block, in a block whose condition may fail, in one whose condition is "always"; an IT state in a block. -/
theorem witness_ItOpensItsBlock : NotUnderIt (atEL2 0#32) (.itT16 0#4 4#4) ∧ (atEL2 0#32).inItBlock = false ∧
    ((atEL2 0#32).atHyp = true ∧ (atEL2 0#32).eff 1 .itd = false) ∧
    (let s := atLevel .el0 true true true true true true
     NotUnderIt s (.itT16 0#4 4#4) ∧ s.inItBlock = false ∧ s.atHyp = false ∧ s.sctlrITD = false) ∧
    (NotUnderIt (afterItEq (atEL2 0#32)) (.itT16 0#4 4#4) ∧ (afterItEq (atEL2 0#32)).inItBlock = true) ∧
    (let s : State := { atEL2 0#32 with itState := 0xE8#8 }
     NotUnderIt s (.itT16 0#4 4#4) ∧ s.inItBlock = true ∧ s.itState.extractLsb' 4 4 = 0b1110#4) ∧
    (0x08#8 : BitVec 8) &&& 0x0F#8 ≠ 0#8 :=
  ⟨.inr (.inl rfl), rfl, ⟨rfl, rfl⟩, ⟨.inr (.inl rfl), rfl, by decide, rfl⟩, ⟨.inr (.inr (.inl ⟨rfl, rfl⟩)), by decide⟩,
    ⟨.inr (.inl rfl), by decide, by decide⟩, by decide⟩

theorem witness_ClassInstructionAfterItIsUndefined :
    let s := afterItEq (atEL2 0x80#32)
    (∀ i ∈ [Instr.itdK5 0x4478#16, .itdK1 0xFFFF#16 (some 0#16), .mrcT32 0#4, .setendT16 true],
      i.wellFormed = true ∧ i.iset = .t32 ∧ inItdClass (firstHalfOf i) = true) ∧
    s.afterIt = true ∧ s.atHyp = true ∧ s.eff 0 .itd = true := ⟨by decide, rfl, rfl, rfl⟩

theorem witness_EveryT32RowIsInAClass : inItdClass 0xC000#16 = true ∧ inItdClass 0xBFFF#16 = true ∧
    inItdClass 0xA7FF#16 = true ∧ inItdClass 0x4FFF#16 = true ∧ inItdClass 0x47F8#16 = true ∧
    inItdClass 0x4487#16 = true ∧ inItdClass 0xA800#16 = false ∧ (Instr.itT16 0#4 8#4).wellFormed = true := by decide

theorem witness_ClassInstructionCompletes : IsClassInstr (.itdK1 0xDF00#16 none) ∧ IsClassInstr (.itdK6 0x4487#16) ∧
    NotUnderIt (atEL2 0x80#32) (.itdK6 0x4487#16) ∧ NotUnderIt (afterItEq (atEL2 0#32)) (.itdK6 0x4487#16) ∧
    AccessesNoMemory (.itdK6 0x4487#16) ∧ (∀ k, (atEL2 0x80#32).eff k .a = false) ∧
    NotUnderIt (afterItEq (atLevel .el1 true true true true true true)) (.itdK1 0xDF00#16 none) ∧
    (afterItEq (atLevel .el1 true true true true true true)).atHyp = false :=
  ⟨.inl ⟨_, _, rfl⟩, .inr (.inr (.inr (.inr (.inr ⟨_, rfl⟩)))), .inr (.inl rfl), .inr (.inr (.inl ⟨rfl, rfl⟩)),
    .inr (.inr ⟨_, rfl⟩), fun _ => rfl, .inr (.inr (.inr ⟨rfl, rfl⟩)), rfl⟩

theorem witness_BarriersAreGatedByCp15ben : IsDmbOrDsb (.cp15dmbA32 14#4 0#4) ∧ IsIsb (.cp15isbT32 15#4) ∧
    NotUnderIt (atEL2 0x80#32) (.cp15dmbA32 14#4 0#4) ∧ NotUnderIt (atEL2 0#32) (.cp15isbT32 15#4) ∧
    (atEL2 0#32).atHyp = true ∧ (atEL2 0#32).eff 1 .cp15ben = false ∧ (atEL2 0x20#32).eff 1 .cp15ben = true :=
  ⟨.inl ⟨_, _, rfl⟩, .inr ⟨_, rfl⟩, .inl rfl, .inr (.inl rfl), rfl, rfl, rfl⟩

theorem witness_DmbAndDsbOnlyAdvance : IsDmbOrDsb (.cp15dsbT32 0#4) ∧ NotUnderIt (atEL2 0x20#32) (.cp15dsbT32 0#4) ∧
    ((atEL2 0x20#32).atHyp = true → (atEL2 0x20#32).eff 1 .cp15ben = true) ∧
    (let s := atLevel .el1 true true true true true true
     s.atHyp = false ∧ s.sctlrCP15BEN = true) ∧
    (let s := afterItEq (atEL2 0x20#32)
     NotUnderIt s (.cp15dsbT32 0#4) ∧ s.inItBlock = true) :=
  ⟨.inr (.inr (.inr ⟨_, rfl⟩)), .inr (.inl rfl), fun _ => rfl, ⟨by decide, rfl⟩, .inr (.inr (.inl ⟨rfl, rfl⟩)), by decide⟩

theorem witness_IsbSynchronises : IsIsb (.cp15isbA32 14#4 0#4) ∧ IsIsb (.cp15isbT32 0#4) ∧
    NotUnderIt (atEL2 0x20#32) (.cp15isbT32 0#4) ∧ (atEL2 0x20#32).inItBlock = false ∧
    ((atEL2 0x20#32).atHyp = true → (atEL2 0x20#32).eff 1 .cp15ben = true) ∧
    (let s := afterItEq (atEL2 0x20#32)
     NotUnderIt s (.cp15isbT32 0#4) ∧ s.inItBlock = true) ∧
    (let s : State := { atEL2 0x20#32 with itState := 0xE8#8 }
     NotUnderIt s (.cp15isbT32 0#4) ∧ s.inItBlock = true ∧ s.itState.extractLsb' 4 4 = 0b1110#4) :=
  ⟨.inl ⟨_, _, rfl⟩, .inr ⟨_, rfl⟩, .inr (.inl rfl), rfl, fun _ => rfl, ⟨.inr (.inr (.inl ⟨rfl, rfl⟩)), by decide⟩,
    .inr (.inl rfl), by decide, by decide⟩

theorem witness_AlignmentCheckAtEL2 :
    (atEL2 2#32).atHyp = true ∧ (atEL2 2#32).eff 0 .a = true ∧ (4#32 : Word).toNat % elementSize (.double 1) ≠ 0 ∧
    (4#32 : Word).toNat % elementSize .word = 0 ∧ (atEL2 2#32).multipleTraps 0 ⟨.plain, .load 0, .double 1, 4#32⟩ = false ∧
    (atEL2 0#32).eff 0 .a = false ∧ (∀ status, AccessClass.multiple ≠ .exclusive status) ∧ AccessClass.multiple ≠ .ordered ∧
    (3#32 : Word).toNat % elementSize .word ≠ 0 ∧ (atEL2 0#32).multipleTraps 0 ⟨.multiple, .load 0, .word, 3#32⟩ = false :=
  ⟨rfl, rfl, by decide, by decide, rfl, rfl, by decide, by decide, by decide, rfl⟩

theorem witness_DeviceMultipleIsTrapped :
    let s := withRegion .deviceNGnRnE true (atEL2 0#32)
    s.atHyp = true ∧ s.eff 0 .ntlsmd = false ∧ (s.stage1 0#32).memType = .deviceNGnRnE ∧
      (atEL2 8#32).eff 0 .ntlsmd = true ∧
      ((withRegion .deviceGRE true (atEL2 0#32)).stage1 0xFF#32).memType = .deviceGRE ∧
      (s.stage1 0x100#32).memType = .normal ∧ AccessClass.plain ≠ .multiple :=
  ⟨rfl, rfl, rfl, rfl, by decide, by decide, by decide⟩

theorem witness_OutsideAccessesAreChecked (o : Outside) :
    let s := withRegion .deviceNGRE true (atEL2 2#32)
    let a : Access := ⟨.multiple, .store 0, .word, 0xFC#32⟩
    let b : Access := ⟨.ordered, .load 0, .half, 0xFFFF#32⟩
    s.atHyp = true ∧ (atEL2 0#32).atHyp = true ∧
      (∀ k a, (a ∈ (⟨[⟨.plain, .store 0, .word, 3#32⟩], o⟩ : OutsideInstr).accesses ∧ true = true) →
        ¬(a.addr.toNat % elementSize a.size ≠ 0 ∧
          (((∃ status, a.cls = .exclusive status) ∨ a.cls = .ordered) ∨ (atEL2 0#32).eff k .a = true)) ∧
        ¬((a.cls = .multiple ∧ (((atEL2 0#32).stage1 a.addr).memType = .deviceNGRE ∨
          ((atEL2 0#32).stage1 a.addr).memType = .deviceNGnRE ∨ ((atEL2 0#32).stage1 a.addr).memType = .deviceNGnRnE)) ∧
          (atEL2 0#32).eff k .ntlsmd = false)) ∧
      (a.cls = .multiple ∧ (s.stage1 a.addr).memType = .deviceNGRE ∧ ∀ k, s.eff k .ntlsmd = false) ∧
      (b.addr.toNat % elementSize b.size ≠ 0 ∧ b.cls = .ordered) ∧ (∀ k, s.eff k .a = true) ∧
      NotUnderIt s (.itdK1 0xC801#16 none) ∧ NotUnderIt s (.itdK2 0xB500#16) ∧ NotUnderIt s (.itdK4 0x4800#16) ∧
      NotUnderIt s (.itdK3 0xA000#16) ∧ (atLevel .el1 true true true true true true).atHyp = false ∧
      (isLiteralLoad ⟨.plain, .load 0, .word, 2#32⟩ = true ∧ (2#32 : Word).toNat % elementSize .word ≠ 0) := by
  refine ⟨rfl, rfl, ?_, ⟨rfl, by decide, fun _ => rfl⟩, ⟨by decide, rfl⟩, fun _ => rfl, .inr (.inl rfl), .inr (.inl rfl),
    .inr (.inl rfl), .inr (.inl rfl), by decide, rfl, by decide⟩
  intro k a ha
  simp only [List.mem_singleton, and_true] at ha
  subst ha
  refine ⟨fun h => ?_, fun h => nomatch h.1.1⟩
  rcases h.2 with (⟨_, h⟩ | h) | h
  · cases h
  · cases h
  · exact absurd h (by simp only [show (atEL2 0#32).eff k .a = false from rfl]; decide)

theorem witness_WritableIsExecuteNeverUnderWxn :
    let s := withRegion .normal true (atEL2 0x80001#32)
    s.atHyp = true ∧ s.cfg.legal = true ∧ s.turns = [] ∧
      ({ s with draws := s.draws + 1, turns := s.turns.tail } : State).permitFetch 4 s.pc = false ∧
      (atEL2 0x80000#32).eff 3 .m = false ∧ (atLevel .el1 true true true true true true).atHyp = false ∧
      (let t : State := { s with iset := .t32, pc := 0xFFFFFFFE#32, mem := [(0xFFFFFFFE, 0x91#8), (0xFFFFFFFF, 0xEE#8)] }
       t.cfg.legal = true ∧ t.turns = [] ∧ t.readByte t.pc = some 0x91#8 ∧ t.readByte (t.pc + 1#32) = some 0xEE#8 ∧
        isWide (halfOfBytes 0x91#8 0xEE#8) = true ∧
        ({ t with draws := t.draws + 1, turns := t.turns.tail } : State).permitFetch 4 t.pc = true ∧
        ({ t with draws := t.draws + 1, turns := t.turns.tail } : State).permitFetch 5 (t.pc + 2#32) = false) :=
  ⟨rfl, rfl, rfl, rfl, rfl, by decide, rfl, rfl, by decide, by decide, by decide, by decide, by decide⟩

theorem witness_CacheabilityByIAndC : (atEL2 0#32).cfg.featAA32EL2 = true ∧ (atEL2 0#32).eff 0 .m = false ∧
    (atEL2 0x1004#32).eff 0 .m = false := ⟨rfl, rfl, rfl⟩

theorem witness_WalkByteOrderByEE :
    let s : State := { atEL2 0x02000000#32 with mem := [(16, 0x12#8), (17, 0x34#8)] }
    s.cfg.featAA32EL2 = true ∧ s.readByte 16#32 = some 0x12#8 ∧ s.readByte (16#32 + 1#32) = some 0x34#8 ∧
      s.readTableEntry 0 .el2Stage1 16#32 2 = some 0x1234 := by decide

theorem witness_StoreByteOrderByPstateE : (0xFFFFFFFC#32 : Word).toNat % 4 = 0 ∧
    ((atEL2 0#32).stage1 0xFFFFFFFC#32).memType = .normal ∧ (∀ r : Fin 15, AccessClass.plain ≠ .exclusive r) ∧
    AccessClass.exclusive 1 ≠ .exclusive 0 := by decide

theorem witness_LoadAfterStoreGivesTheValue : ∃ t, (0x100#32 : Word).toNat % 4 = 0 ∧
    ((atEL2 0#32).stage1 0x100#32).memType = .normal ∧ (∀ status, AccessClass.plain ≠ .exclusive status) ∧
    (atEL2 0#32).runEvent (.access ⟨.plain, .store 3, .word, 0x100#32⟩) = .next t :=
  ⟨_, by decide, by decide, by decide, rfl⟩

theorem witness_MultipleOrderByLsmaoe : (atEL2 0#32).atHyp = true ∧ (atEL2 0#32).eff 0 .lsmaoe = false ∧
    (atEL2 0x10#32).eff 0 .lsmaoe = true ∧ (atLevel .el1 true true true true true true).atHyp = false :=
  ⟨rfl, rfl, rfl, by decide⟩

theorem witness_ResetEventResetsHsctlr : (atEL2 0#32).cfg.highestEL = .el2 ∧ (atEL2 0#32).cfg.featAA32EL2 = true ∧
    (atEL2 0#32).cfg.resetTE = false ∧ (inCfg { Config.full with resetTE := true } (atEL2 0#32)).cfg.resetTE = true ∧
    (atEL2 0#32).cfg.featMixedEnd = true ∧ (inCfg .bigEnd (atEL2 0#32)).cfg.featMixedEnd = false ∧
    (atEL2 0#32).cfg.featSSBS = true := ⟨rfl, rfl, rfl, rfl, rfl, rfl, rfl⟩

theorem witness_SctlrEl2WriteIsReadByMrc : ∃ t u, (atEL2 0#32).runEvent (.writeSctlrEl2 0xFFFFFFFF#32) = .next t ∧
    AdmittedMrc t (.mrcA32 14#4 14#4) 14#4 ∧ t.accessCheck = .allow ∧ exec (.mrcA32 14#4 14#4) t = .next u :=
  ⟨_, _, rfl, (admitted _ rfl rfl).1, rfl, rfl⟩

theorem witness_StepRunsTheDecodedInstruction :
    let s : State := { atEL2 0#32 with iset := .t32, mem := [(0, 0x91#8), (1, 0xEE#8), (2, 0x10#8), (3, 0x2F#8)] }
    s.cfg.legal = true ∧ s.turns = [] ∧ Memory.readBytes s.mem s.pc 4 = some [0x91#8, 0xEE#8, 0x10#8, 0x2F#8] ∧
      decode s.iset [0x91#8, 0xEE#8, 0x10#8, 0x2F#8] = .ok (.mrcT32 2#4, []) ∧
      ({ s with draws := s.draws + 1, turns := s.turns.tail } : State).fetchPermitted 4 = true := by decide

theorem witness_WordsOutsideTheTableRun :
    let s : State := { atEL2 0#32 with iset := .t32, mem := [(0, 0x40#8), (1, 0x18#8)], turns := [.instruction] }
    s.cfg.legal = true ∧ s.turns = .instruction :: [] ∧
      ({ s with draws := s.draws + 1, turns := s.turns.tail } : State).fetchSize = some 2 ∧
      Memory.readBytes s.mem s.pc 2 = some [0x40#8, 0x18#8] ∧
      ({ s with draws := s.draws + 1, turns := s.turns.tail } : State).fetchPermitted 2 = true ∧
      (∀ i rest, decode s.iset [0x40#8, 0x18#8] ≠ .ok (i, rest)) := by
  refine ⟨by decide, rfl, by decide, by decide, by decide, ?_⟩
  have h : decode .t32 [0x40#8, 0x18#8] = .error (.noRowT32 0x1840#16) := by decide
  intro i rest e
  rw [show decode _ _ = _ from h] at e
  cases e

theorem witness_StepRunsThePendingEvent :
    let s : State := { atEL2 0#32 with turns := [.around .contextSync, .instruction] }
    s.cfg.legal = true ∧ s.turns = .around .contextSync :: [.instruction] := by decide

theorem witness_IllegalConfigurationIsRefused :
    let s := inCfg { Config.full with haveEL2 := false } (atEL2 0#32)
    (s.cfg.featAA32EL2 = true ∧ s.cfg.haveEL2 = false) ∧
      (inCfg { Config.full with featAA32EL2 := false, haveEL2 := false } (atEL2 0#32)).cfg.highestEL = .el2 := by decide

theorem witness_StepKeepsTheInvariant : ∃ t, ((atEL2 0#32).withFetchWord 32 0xEE910F10).Inv ∧
    step ((atEL2 0#32).withFetchWord 32 0xEE910F10) = .next t :=
  ⟨_, ⟨by decide, rfl, by decide, by decide, by decide, by decide, by decide⟩, rfl⟩

theorem witness_ResetHasTheInvariant : Config.minimal.legal = true ∧
    { Config.full with highestEL := .el3, resPolicy := .stored }.legal = true := by decide

theorem witness_StepKeepsTheConfiguration : ∃ t, step { atEL2 0#32 with turns := [.around .warmReset] } = .next t := ⟨_, rfl⟩

theorem witness_OnlyAllowedMcrChangesHsctlr (o : Outside) :
    (∃ t, exec (.mcrA32 14#4 0#4) (withRegs 0xFFFFFFFF#32 (atEL2 0#32)) = .next t ∧ t.hsctlr.stored = 0xC20811BF#32) ∧
    (∃ t, exec (.itdK3 0xA000#16) (atEL2 0#32) = .next t) ∧
    (∃ t, (atEL2 0#32).outsideInstr (fun _ => true) ⟨[⟨.plain, .store 0, .word, 4#32⟩], o⟩ = .next t) :=
  ⟨⟨_, rfl, by decide⟩, classInstr_completes (s := atEL2 0#32) (hw1 := 0xA000#16) rfl (fun _ _ h => by cases h), ⟨_, rfl⟩⟩

theorem witness_LowerLevelsCannotWriteHsctlr :
    let s := (atLevel .el1 true false true false true true).withFetchWord 32 0xEE810F10
    ∃ t, s.turns = [] ∧ step s = .next t ∧ s.el = .el1 := ⟨_, rfl, rfl, rfl⟩

theorem witness_LowerLevelsCannotReadHsctlr :
    let s := atLevel .el1 true false true false true true
    let h := known 0x1019#32
    AdmittedMrc s (.mrcA32 14#4 14#4) 14#4 ∧ s.el = .el1 ∧
      (∀ f ∈ [Field.te, .ee, .dssbs], h.eff s.cfg (s.draw 3) f = s.hsctlr.eff s.cfg (s.draw 3) f) ∧
      (∃ t, exec (.mrcA32 14#4 14#4) s = .next t) ∧
      (∃ r, exec (.mrcA32 14#4 14#4) (atLevel .el0 true true true true true true) = .fault r) := by
  refine ⟨(admitted _ rfl rfl).1, rfl, ?_, ⟨_, rfl⟩, ⟨_, rfl⟩⟩
  intro f hf
  simp only [List.mem_cons, List.not_mem_nil, or_false] at hf
  rcases hf with rfl | rfl | rfl <;> rfl

end Sys2Proof.Tests
end

section
/-! PROOFS of the family 00_scope: what every step keeps. No step changes the configuration, and every step keeps
`State.Inv`. The register's part of the invariant is kept apart, as `Hsctlr.WellPlaced`; the state's part then follows
from the inversion lemmas `step_cases`, `runInstruction_next` and `exec_cases`. -/

namespace Sys2Proof.Machine

/-! ## Masks -/

/-- Every set bit of `x` is a bit of the mask `m`: the form in which `State.Inv` says it. -/
def Within (x m : Word) : Prop := x &&& ~~~m = 0#32

theorem within_iff {x m : Word} : Within x m ↔ ∀ n, x.getLsbD n = true → m.getLsbD n = true := by
  constructor
  · intro h n hx
    have hn : n < 32 := BitVec.lt_of_getLsbD hx
    have hbit : (x &&& ~~~m).getLsbD n = false := by rw [h]; exact BitVec.getLsbD_zero
    simpa [hx, hn] using hbit
  · intro h
    apply BitVec.eq_of_getLsbD_eq
    intro n hn
    cases hx : x.getLsbD n with
    | false => simp [hx]
    | true => simp [hx, h n hx]

theorem Within.zero (m : Word) : Within 0#32 m := BitVec.zero_and

theorem Within.or {x y m : Word} (hx : Within x m) (hy : Within y m) : Within (x ||| y) m := by
  rw [within_iff] at *
  intro n h
  rw [BitVec.getLsbD_or, Bool.or_eq_true] at h
  exact h.elim (hx n) (hy n)

theorem Within.and {x y m m' : Word} (hx : Within x m) (hy : Within y m') : Within (x &&& y) (m &&& m') := by
  rw [within_iff] at *
  intro n h
  rw [BitVec.getLsbD_and, Bool.and_eq_true] at *
  exact h.imp (hx n) (hy n)

theorem Within.refl (m : Word) : Within m m := BitVec.and_not_self m

theorem Within.and_left {x m : Word} (hx : Within x m) (y : Word) : Within (x &&& y) m :=
  within_iff.2 fun n h => within_iff.1 hx n (by simp_all)

theorem and_within (x m : Word) : Within (x &&& m) m :=
  within_iff.2 fun n h => by simp_all

/-! ## Where the unknown, pending and stale bits of HSCTLR may lie -/

/-- The part of `State.Inv` that speaks of HSCTLR alone: unknown bits are writable, pending bits are controls, stale bits
are controls that a TLB may cache (R73). -/
structure Hsctlr.WellPlaced (c : Config) (h : Hsctlr) : Prop where
  unknown : Within h.unknown (writeMask c)
  pending : Within h.pending (ctrlMask c)
  stale : Within h.tlbStale (ctrlMask c &&& tlbMask)

/-- A write makes only controls unsettled (R144). -/
theorem changedBy_within (c : Config) (h : Hsctlr) (v : Word) : Within (h.changedBy c v) (ctrlMask c) :=
  and_within _ _

namespace Hsctlr.WellPlaced

theorem reset (c : Config) : (Hsctlr.reset c).WellPlaced c where
  unknown := by
    rw [within_iff]
    intro n h
    cases hp : c.resPolicy with
    | hardwired => simp_all [Hsctlr.reset, resetUnknown, writeMask]
    | stored =>
      simp only [Hsctlr.reset, resetUnknown, writeMask, hp, getLsbD_maskIf, BitVec.getLsbD_or, BitVec.getLsbD_and,
        beq_self_eq_true, Bool.true_and, Bool.or_eq_true, Bool.and_eq_true] at h ⊢
      tauto
  pending := .zero _
  stale := .zero _

variable {c : Config} {h : Hsctlr}

theorem write (hw : h.WellPlaced c) (v : Word) : (h.write c v).WellPlaced c where
  unknown := hw.unknown.and_left _
  pending := hw.pending.or (changedBy_within c h v)
  stale := hw.stale.or ((changedBy_within c h v).and (.refl _))

theorem writeFromOutside (hw : h.WellPlaced c) (v : Word) : (h.writeFromOutside c v).WellPlaced c where
  unknown := .zero _
  pending := hw.pending.or (changedBy_within c h v)
  stale := hw.stale.or ((changedBy_within c h v).and (.refl _))

theorem synchronise (hw : h.WellPlaced c) : h.synchronise.WellPlaced c := ⟨hw.unknown, .zero _, hw.stale⟩

theorem invalidateTlb (hw : h.WellPlaced c) : h.invalidateTlb.WellPlaced c := ⟨hw.unknown, hw.pending, .zero _⟩

theorem outside (hw : h.WellPlaced c) (o : Outside) : (outsideHsctlr o h).WellPlaced c where
  unknown := by rw [outside_unknown]; exact hw.unknown
  pending := by
    rcases outside_pending o h with e | e <;> rw [e]
    · exact hw.pending
    · exact .zero _
  stale := by
    rcases outside_tlbStale o h with e | e <;> rw [e]
    · exact hw.stale
    · exact .zero _

end Hsctlr.WellPlaced

/-! ## The invariant under each effect -/

theorem State.Inv.wellPlaced {s : State} (hs : s.Inv) : s.hsctlr.WellPlaced s.cfg :=
  ⟨hs.unknown, hs.pending, hs.stale⟩

/-- What a change of the state owes to the invariant, clause by clause: every effect below is one use of this rule. -/
theorem State.Inv.of_change {s t : State} (hs : s.Inv) (hcfg : t.cfg = s.cfg) (hmem : Memory.wf t.mem = true)
    (hreg : t.hsctlr.WellPlaced s.cfg) (hssbs : s.cfg.featSSBS = false → t.ssbs = s.ssbs)
    (hit : t.afterIt = true → t.inItBlock = true) : t.Inv where
  memory := hmem
  config := hcfg ▸ hs.config
  unknown := hcfg ▸ hreg.unknown
  pending := hcfg ▸ hreg.pending
  stale := hcfg ▸ hreg.stale
  noSsbs h := by rw [hcfg] at h; rw [hssbs h, hs.noSsbs h]
  afterIt := hit

namespace State.Inv

variable {s : State}

theorem newTurn (hs : s.Inv) (rest : List Turn) : ({ s.tick with turns := rest } : State).Inv :=
  hs.of_change rfl hs.memory hs.wellPlaced (fun _ => rfl) hs.afterIt

theorem takeExceptionToHyp (hs : s.Inv) : s.takeExceptionToHyp.Inv :=
  hs.of_change rfl hs.memory hs.wellPlaced.synchronise (fun h => by simp [h]) nofun

theorem setOutside (hs : s.Inv) (o : Outside) : (s.setOutside o).Inv :=
  hs.of_change rfl (wf_writeAll hs.memory _) (hs.wellPlaced.outside o) (fun h => by simp [h])
    fun h => (Bool.and_eq_true_iff.1 h).2

theorem applyOutside (hs : s.Inv) (o : Outside) : (s.applyOutside o).Inv := by
  rcases applyOutside_cases s o with e | e <;> rw [e]
  · exact (hs.setOutside o).takeExceptionToHyp
  · exact hs.setOutside o

theorem warmReset (hs : s.Inv) : s.warmReset.Inv :=
  hs.of_change rfl (wf_writeAll hs.memory _) (.reset _) (fun h => by simp [State.warmReset, h]) nofun

/-- A data access writes registers and memory only. -/
theorem moved (hs : s.Inv) (regs : Vector Word 15) (a : Word) (bs : List Byte) :
    ({ s with regs := regs, mem := Memory.writeBytes s.mem a bs } : State).Inv :=
  hs.of_change rfl (wf_writeBytes hs.memory a bs) hs.wellPlaced (fun _ => rfl) hs.afterIt

theorem pastA32 (hs : s.Inv) : s.pastA32.Inv :=
  hs.of_change rfl hs.memory hs.wellPlaced (fun _ => rfl) nofun

theorem pastT32 (hs : s.Inv) (len : Word) : (s.pastT32 len).Inv :=
  hs.of_change rfl hs.memory hs.wellPlaced (fun _ => rfl) nofun

theorem writeReg (hs : s.Inv) (t : BitVec 4) (v : Word) : (s.writeReg t v).Inv :=
  hs.of_change rfl hs.memory hs.wellPlaced (fun _ => rfl) hs.afterIt

theorem writeHsctlr (hs : s.Inv) (v : Word) : (s.writeHsctlr v).Inv :=
  hs.of_change rfl hs.memory (hs.wellPlaced.write v) (fun _ => rfl) hs.afterIt

theorem writeSctlrEl2 (hs : s.Inv) (v : Word) : (s.writeSctlrEl2 v).Inv :=
  hs.of_change rfl hs.memory (hs.wellPlaced.writeFromOutside v) (fun _ => rfl) hs.afterIt

theorem synchronise (hs : s.Inv) : s.synchronise.Inv :=
  hs.of_change rfl hs.memory hs.wellPlaced.synchronise (fun _ => rfl) hs.afterIt

theorem invalidateTlb (hs : s.Inv) : s.invalidateTlb.Inv :=
  hs.of_change rfl hs.memory hs.wellPlaced.invalidateTlb (fun _ => rfl) hs.afterIt

theorem takeHypTrap (hs : s.Inv) (ec : Nat) : (s.takeHypTrap ec).Inv :=
  hs.of_change rfl hs.memory hs.wellPlaced.synchronise (fun h => by simp [h]) nofun

theorem setEndian (hs : s.Inv) (holds big : Bool) : (s.setEndian holds big).Inv := by
  cases holds
  · exact hs
  · exact hs.of_change rfl hs.memory hs.wellPlaced (fun _ => rfl) hs.afterIt

theorem barrier (hs : s.Inv) (b : Barrier) (holds : Bool) : (s.barrier b holds).Inv := by
  cases b with
  | dmb => exact hs
  | dsb => exact hs
  | isb =>
    cases holds
    · exact hs
    · exact hs.synchronise

/-- An IT opens a block only where its mask is not zero, which is what R86 asks of an IT. -/
theorem openItBlock (hs : s.Inv) (firstcond : BitVec 4) {mask : BitVec 4} (hm : mask ≠ 0#4) :
    (s.openItBlock firstcond mask).Inv := by
  refine hs.of_change rfl hs.memory hs.wellPlaced (fun _ => rfl) fun _ => ?_
  have e : (firstcond ++ mask).extractLsb' 0 4 = mask := by
    apply BitVec.eq_of_getLsbD_eq
    intro n hn
    rw [BitVec.getLsbD_extractLsb', Nat.zero_add, BitVec.getLsbD_append]
    simp [hn]
  simp [State.inItBlock, State.openItBlock, e, hm]

end State.Inv

/-! ## The invariant under a step -/

theorem decodeA32_ne_itT16 (w : Word) (firstcond mask : BitVec 4) : decodeA32 w ≠ some (.itT16 firstcond mask) := by
  simp only [decodeA32]
  repeat' split
  all_goals simp

theorem decodeT32Wide_ne_itT16 (hw1 hw2 : Half) (firstcond mask : BitVec 4) :
    decodeT32Wide hw1 hw2 ≠ .itT16 firstcond mask := by
  simp only [decodeT32Wide]
  repeat' split
  all_goals simp

theorem decodeT32Narrow_itT16_mask {hw1 : Half} {firstcond mask : BitVec 4}
    (h : decodeT32Narrow hw1 = some (.itT16 firstcond mask)) : mask ≠ 0#4 := by
  simp only [decodeT32Narrow] at h
  split at h
  · cases h
  · split at h
    · next hit =>
      cases h
      simpa using (Bool.and_eq_true_iff.1 hit).2
    · exfalso
      revert h
      repeat' split
      all_goals simp

/-- The decoder reads an IT only from a halfword with a nonzero mask (R86). -/
theorem decode_itT16_mask {iset : ISet} {bs rest : List Byte} {firstcond mask : BitVec 4}
    (h : decode iset bs = .ok (.itT16 firstcond mask, rest)) : mask ≠ 0#4 := by
  unfold decode at h
  split at h
  · split at h
    · next hd => cases h; exact absurd hd (decodeA32_ne_itT16 _ _ _)
    · cases h
  · split at h
    · split at h
      · next b2 b3 rest' =>
        injection h with h
        exact absurd (congrArg Prod.fst h) (decodeT32Wide_ne_itT16 _ _ _ _)
      · cases h
    · split at h
      · next hd => cases h; exact decodeT32Narrow_itT16_mask hd
      · cases h
  · cases h

/-- The premise on the mask is what the decoder gives: an IT with mask 0, which no halfword stands for, would mark the
next instruction outside a block. -/
theorem exec_inv {i : Instr} {s t : State} (hs : s.Inv)
    (hm : ∀ firstcond mask, i = .itT16 firstcond mask → mask ≠ 0#4)
    (h : exec i s = .next t) : t.Inv := by
  cases exec_cases h with
  | hypTrap => exact hs.takeHypTrap _
  | mrcA32 => exact (hs.writeReg _ _).pastA32
  | mrcT32 => exact (hs.writeReg _ _).pastT32 _
  | mcrA32 => exact (hs.writeHsctlr _).pastA32
  | mcrT32 => exact (hs.writeHsctlr _).pastT32 _
  | setendA32 => exact (hs.setEndian _ _).pastA32
  | setendT16 => exact (hs.setEndian _ _).pastT32 _
  | it => exact hs.openItBlock _ (hm _ _ rfl)
  | itSkipped => exact hs.pastT32 _
  | barrierA32 b holds => exact (hs.barrier b holds).pastA32
  | barrierT32 b holds => exact (hs.barrier b holds).pastT32 _
  | outside o => exact hs.applyOutside o

theorem runInstruction_inv {s t : State} (hs : s.Inv) (h : s.runInstruction = .next t) : t.Inv := by
  rcases runInstruction_next h with ⟨i, hf, he⟩ | ⟨-, o, rfl⟩
  · obtain ⟨_, bs, rest, -, hd⟩ := fetch_decoded hf
    exact exec_inv hs (fun _ _ e => decode_itT16_mask (e ▸ hd)) he
  · exact hs.applyOutside o

theorem runEvent_inv {s t : State} {e : Event} (hs : s.Inv) (h : s.runEvent e = .next t) : t.Inv := by
  cases e with
  | warmReset => cases h; exact hs.warmReset
  | coldReset => cases h; exact hs.warmReset
  | exceptionToHyp =>
    simp only [State.runEvent] at h
    split at h <;> cases h
    exact hs.takeExceptionToHyp
  | writeSctlrEl2 v => cases h; exact hs.writeSctlrEl2 v
  | contextSync => cases h; exact hs.synchronise
  | tlbInvalidate => cases h; exact hs.invalidateTlb
  | access a =>
    obtain ⟨regs, b, bs, rfl⟩ := runAccess_next h
    exact hs.moved regs b bs
  | outside o => cases h; exact hs.applyOutside o

theorem resetWith_inv {c : Config} (hc : c.legal = true) : (State.resetWith c).Inv where
  memory := rfl
  config := hc
  unknown := (Hsctlr.WellPlaced.reset c).unknown
  pending := (Hsctlr.WellPlaced.reset c).pending
  stale := (Hsctlr.WellPlaced.reset c).stale
  noSsbs h := by
    have hc' : c.featSSBS = false := h
    simp [State.resetWith, hc']
  afterIt := nofun

/-! ## The configuration under a step -/

theorem exec_cfg {i : Instr} {s t : State} (h : exec i s = .next t) : t.cfg = s.cfg := by
  cases exec_cases h <;> simp [State.openItBlock]

theorem runInstruction_cfg {s t : State} (h : s.runInstruction = .next t) : t.cfg = s.cfg := by
  rcases runInstruction_next h with ⟨i, -, he⟩ | ⟨-, o, rfl⟩
  · exact exec_cfg he
  · exact applyOutside_cfg s o

theorem runEvent_cfg {s t : State} {e : Event} (h : s.runEvent e = .next t) : t.cfg = s.cfg := by
  cases e with
  | warmReset => cases h; rfl
  | coldReset => cases h; rfl
  | exceptionToHyp =>
    simp only [State.runEvent] at h
    split at h <;> cases h
    rfl
  | writeSctlrEl2 v => cases h; rfl
  | contextSync => cases h; rfl
  | tlbInvalidate => cases h; rfl
  | access a => obtain ⟨regs, b, bs, rfl⟩ := runAccess_next h; rfl
  | outside o => cases h; exact applyOutside_cfg s o

end Sys2Proof.Machine

open Sys2Proof.Machine

/-- Settles O55: the turn taken keeps the invariant, and so does the event or the instruction that it runs. -/
theorem stepKeepsTheInvariant : Obligations.StepKeepsTheInvariant := by
  intro s t hs h
  obtain ⟨-, ⟨e, rest, -, he⟩ | ⟨rest, -, hi⟩⟩ := step_cases h
  · exact runEvent_inv (hs.newTurn rest) he
  · exact runInstruction_inv (hs.newTurn rest) hi

/-- Settles O57: no event and no instruction writes the field `cfg`. -/
theorem stepKeepsTheConfiguration : Obligations.StepKeepsTheConfiguration := by
  intro s t h
  obtain ⟨-, ⟨e, rest, -, he⟩ | ⟨rest, -, hi⟩⟩ := step_cases h
  · exact (runEvent_cfg he).trans rfl
  · exact (runInstruction_cfg hi).trans rfl

/-- Settles O56: the base case of the invariant, for every legal configuration and so for the reset configuration. -/
theorem resetHasTheInvariant : Obligations.ResetHasTheInvariant :=
  ⟨resetWith_inv rfl, fun _ hc => resetWith_inv hc⟩
end

section
/-! PROOFS of the family 10_state: HSCTLR bit by bit. The table of R14 is written once, as `bitKind`, and each of the five
masks is tied to it; reading, writing, effective values and the reset then follow from the kind of the bit. The other
statements are short uses of the laws of exec and step: the absent register, the shared register, the turn of the machine
around, the illegal configuration. -/

namespace Sys2Proof.Machine

/-! ## The kinds of bits (R14) -/

/-- The five kinds of bit that the table of R14 gives out. -/
inductive BitKind where
  | control | res1 | res0 | razwi | raowi
deriving DecidableEq

/-- The table of R14 by bit number: the seven bits that are controls under a condition, the six controls of every
configuration, the seven bits that are always RES1, and RES0 for the rest. -/
def bitKind (c : Config) : Nat → BitKind
  | 31 => if c.featSSBS then .control else .res0
  | 25 => if c.featMixedEnd then .control else if c.featBigEnd then .res1 else .res0
  | 8 => if c.mixedEndEL2 then .control else .res1
  | 7 => if c.itdImplemented then .control else .razwi
  | 5 => if c.cp15benImplemented then .control else .raowi
  | 4 | 3 => if c.featLSMAOC then .control else .res1
  | 30 | 19 | 12 | 2 | 1 | 0 => .control
  | 29 | 28 | 23 | 22 | 18 | 16 | 11 => .res1
  | _ => .res0

/-- Whether a write changes a bit of the kind (R36). -/
def BitKind.writable (p : ResPolicy) : BitKind → Bool
  | .control => true
  | .res1 | .res0 => p == .stored
  | .razwi | .raowi => false

/-- The value that a bit of the kind has where it is fixed (R34, R35). -/
def BitKind.fixed : BitKind → Bool
  | .res1 | .raowi => true
  | .control | .res0 | .razwi => false

section
variable {c : Config} {n : Nat} (hn : n < 32)
include hn

/-! Each mask of R15 holds the bits of one kind: the 32 bits of its constants are compared with the table. -/

theorem getLsbD_ctrlMask : (ctrlMask c).getLsbD n = decide (bitKind c n = .control) := by
  simp only [ctrlMask, BitVec.getLsbD_or, getLsbD_maskIf]
  interval_cases n <;> grind [bitKind]

theorem getLsbD_res1Mask : (res1Mask c).getLsbD n = decide (bitKind c n = .res1) := by
  simp only [res1Mask, BitVec.getLsbD_or, getLsbD_maskIf]
  interval_cases n <;> grind [bitKind]

theorem getLsbD_res0Mask : (res0Mask c).getLsbD n = decide (bitKind c n = .res0) := by
  simp only [res0Mask, BitVec.getLsbD_or, getLsbD_maskIf]
  interval_cases n <;> grind [bitKind]

theorem getLsbD_razwiMask : (razwiMask c).getLsbD n = decide (bitKind c n = .razwi) := by
  simp only [razwiMask, getLsbD_maskIf]
  interval_cases n <;> grind [bitKind]

theorem getLsbD_raowiMask : (raowiMask c).getLsbD n = decide (bitKind c n = .raowi) := by
  simp only [raowiMask, getLsbD_maskIf]
  interval_cases n <;> grind [bitKind]

theorem getLsbD_writeMask : (writeMask c).getLsbD n = (bitKind c n).writable c.resPolicy := by
  cases hp : c.resPolicy with
  | hardwired =>
    simp only [writeMask, hp, getLsbD_ctrlMask hn]
    cases bitKind c n <;> rfl
  | stored =>
    simp only [writeMask, hp, BitVec.getLsbD_or, getLsbD_ctrlMask hn, getLsbD_res0Mask hn, getLsbD_res1Mask hn]
    cases bitKind c n <;> rfl

/-- The masks of the bits fixed to 1 hold the fixed value of every bit that is no control. -/
theorem getLsbD_fixedMask : (res1Mask c ||| raowiMask c).getLsbD n = (bitKind c n).fixed := by
  rw [BitVec.getLsbD_or, getLsbD_res1Mask hn, getLsbD_raowiMask hn]
  cases bitKind c n <;> rfl

/-! ## Reading and writing (R35, R36) -/

theorem getLsbD_readMasked (s : Word) :
    (readMasked c s).getLsbD n = if (bitKind c n).writable c.resPolicy then s.getLsbD n else (bitKind c n).fixed := by
  cases hp : c.resPolicy with
  | hardwired =>
    simp only [readMasked, hp, BitVec.getLsbD_or, BitVec.getLsbD_and, getLsbD_ctrlMask hn, getLsbD_res1Mask hn,
      getLsbD_raowiMask hn]
    cases bitKind c n <;> simp [BitKind.writable, BitKind.fixed]
  | stored =>
    simp only [readMasked, hp, BitVec.getLsbD_or, BitVec.getLsbD_and, getLsbD_ctrlMask hn, getLsbD_res0Mask hn,
      getLsbD_res1Mask hn, getLsbD_raowiMask hn]
    cases bitKind c n <;> simp [BitKind.writable, BitKind.fixed]

theorem getLsbD_writeMasked (s v : Word) :
    (writeMasked c s v).getLsbD n = if (bitKind c n).writable c.resPolicy then v.getLsbD n else s.getLsbD n := by
  simp only [writeMasked, BitVec.getLsbD_or, BitVec.getLsbD_and, BitVec.getLsbD_not, getLsbD_writeMask hn]
  cases (bitKind c n).writable c.resPolicy <;> simp [hn]

theorem read_and_write_of_writable {k : BitKind} (hk : bitKind c n = k) (hw : k.writable c.resPolicy = true)
    (s v : Word) : (readMasked c s).getLsbD n = s.getLsbD n ∧ (writeMasked c s v).getLsbD n = v.getLsbD n := by
  rw [getLsbD_readMasked hn, getLsbD_writeMasked hn, hk, hw]
  exact ⟨rfl, rfl⟩

theorem read_and_write_of_fixed {k : BitKind} (hk : bitKind c n = k) (hw : k.writable c.resPolicy = false)
    (s v : Word) : (readMasked c s).getLsbD n = k.fixed ∧ (writeMasked c s v).getLsbD n = s.getLsbD n := by
  rw [getLsbD_readMasked hn, getLsbD_writeMasked hn, hk, hw]
  exact ⟨rfl, rfl⟩

end

section
variable (c : Config) (s v : Word)

/-- What was in `S` before a write does not show in a read after it. -/
theorem readMasked_writeMasked : readMasked c (writeMasked c s v) = readMasked c v := by
  apply BitVec.eq_of_getLsbD_eq
  intro n hn
  simp only [getLsbD_readMasked hn, getLsbD_writeMasked hn]
  split <;> rfl

theorem writeMasked_readMasked : writeMasked c s (readMasked c s) = s := by
  apply BitVec.eq_of_getLsbD_eq
  intro n hn
  simp only [getLsbD_readMasked hn, getLsbD_writeMasked hn]
  split <;> rfl

theorem writeMasked_writeMasked : writeMasked c (writeMasked c s v) v = writeMasked c s v := by
  apply BitVec.eq_of_getLsbD_eq
  intro n hn
  simp only [getLsbD_writeMasked hn]
  split <;> rfl

variable {c v}

/-- A value with 0 in the RES0 and RAZ/WI bits and 1 in the RES1 and RAO/WI bits reads as itself under both policies. -/
theorem readMasked_of_fixed_bits (h0 : v &&& (res0Mask c ||| razwiMask c) = 0#32)
    (h1 : v &&& (res1Mask c ||| raowiMask c) = res1Mask c ||| raowiMask c) : readMasked c v = v := by
  apply BitVec.eq_of_getLsbD_eq
  intro n hn
  have h0n := congrArg (BitVec.getLsbD · n) h0
  have h1n := congrArg (BitVec.getLsbD · n) h1
  simp only [BitVec.getLsbD_and, BitVec.getLsbD_or, BitVec.getLsbD_zero, getLsbD_res0Mask hn, getLsbD_razwiMask hn,
    getLsbD_res1Mask hn, getLsbD_raowiMask hn] at h0n h1n
  rw [getLsbD_readMasked hn]
  cases hk : bitKind c n <;> simp_all [BitKind.writable, BitKind.fixed]

end

/-! ## Effective values (R34) -/

theorem Field.bit_lt (f : Field) : f.bit < 32 := by cases f <;> decide

theorem eff_of_not_control {c : Config} {f : Field} (hk : bitKind c f.bit ≠ .control) (h : Hsctlr) (d : Word) :
    h.eff c d f = (bitKind c f.bit).fixed := by
  rw [eff_fixed (by simpa [getLsbD_ctrlMask f.bit_lt] using hk), getLsbD_fixedMask f.bit_lt]

/-- The draw of all ones or of all zeros gives an unsettled control the value asked for. -/
theorem exists_eff_of_not_settled {c : Config} {h : Hsctlr} {f : Field} (hc : (ctrlMask c).getLsbD f.bit = true)
    (hs : ¬h.settled f) (b : Bool) : ∃ d, h.eff c d f = b := by
  refine ⟨maskIf b (BitVec.allOnes 32), ?_⟩
  rw [eff_draw hc (Bool.not_eq_false _ ▸ hs), getLsbD_maskIf, BitVec.getLsbD_allOnes]
  simp [f.bit_lt]

/-! ## The reset (R37, R38) -/

section
variable {c : Config} {n : Nat} (hc : (ctrlMask c).getLsbD n = true)
include hc

theorem reset_stored_of_ctrl : (Hsctlr.reset c).stored.getLsbD n =
    (c.resetDSSBS && (0x80000000#32).getLsbD n || c.resetTE && (0x40000000#32).getLsbD n
      || c.resetEE && (0x02000000#32).getLsbD n || c.highestEL == .el2 && (0x00000018#32).getLsbD n) := by
  simp only [Hsctlr.reset, resetStored, BitVec.getLsbD_and, hc, Bool.and_true, BitVec.getLsbD_or, getLsbD_maskIf]

/-- A control is no reserved bit, so R38 does not make it UNKNOWN. -/
theorem reset_unknown_of_ctrl : (Hsctlr.reset c).unknown.getLsbD n =
    ((0x000801A2#32).getLsbD n || c.highestEL != .el2 && (0x0000101D#32).getLsbD n) := by
  have hn : n < 32 := BitVec.lt_of_getLsbD hc
  have hk : bitKind c n = .control := by simpa [getLsbD_ctrlMask hn] using hc
  simp [Hsctlr.reset, resetUnknown, hc, hk, getLsbD_res0Mask hn, getLsbD_res1Mask hn]

end

theorem bitKind_of_reserved {c : Config} {n : Nat} (h : (res0Mask c ||| res1Mask c).getLsbD n = true) :
    n < 32 ∧ (bitKind c n = .res0 ∨ bitKind c n = .res1) := by
  have hn : n < 32 := BitVec.lt_of_getLsbD h
  rw [BitVec.getLsbD_or, getLsbD_res0Mask hn, getLsbD_res1Mask hn, Bool.or_eq_true, decide_eq_true_iff,
    decide_eq_true_iff] at h
  exact ⟨hn, h⟩

/-! ## Access to HSCTLR (R11, R91) -/

theorem accessCheck_absent {s : State} (h : s.cfg.featAA32EL2 = false) : s.accessCheck = .undefined := by
  simp [State.accessCheck, h]

theorem AdmittedMrc.rt_ne {s : State} {i : Instr} {rt : BitVec 4} (h : AdmittedMrc s i rt) : rt ≠ 15#4 := by
  rcases h with ⟨-, h15⟩ | ⟨-, -, h15, -⟩ <;> exact h15

/-- An allowed MRC leaves in `R[t]` what R35 reads. -/
theorem exec_mrc_readReg {s t : State} {i : Instr} {rt : BitVec 4} (hi : AdmittedMrc s i rt)
    (ha : s.accessCheck = .allow) (h : exec i s = .next t) : t.readReg rt = some s.readHsctlr := by
  rw [exec_mrc hi, State.withAccess, ha] at h
  cases h
  rw [readReg_of_regs (pastA32_regs _), readReg_writeReg_same _ hi.rt_ne]

/-! ## The step: the turn of the machine around, the illegal configuration (R12, R39) -/

theorem step_around {s : State} {e : Event} {rest : List Turn} (hl : s.cfg.legal = true)
    (ht : s.turns = .around e :: rest) : step s = ({ s.tick with turns := rest } : State).runEvent e := by
  simp only [step, hl, ht, if_true]

theorem legal_eq_false_iff (c : Config) :
    c.legal = false ↔ (c.featAA32EL2 = true ∨ c.highestEL = .el2) ∧ c.haveEL2 = false := by
  cases h : c.haveEL2 <;> simp [Config.legal, h, imp_iff_not_or]

theorem outsideInstr_legal (s : State) (admits : Access → Bool) (o : OutsideInstr) :
    s.outsideInstr admits o ≠ .refused .illegalConfiguration := by
  simp only [State.outsideInstr]
  split <;> nofun

theorem runInstruction_legal (s : State) : s.runInstruction ≠ .refused .illegalConfiguration := by
  unfold State.runInstruction
  cases s.fetch with
  | instr i => exact exec_legal i s
  | outside => exact outsideInstr_legal s _ _
  | fault f => nofun

theorem runAccess_legal (s : State) (a : Access) : s.runAccess a ≠ .refused .illegalConfiguration := by
  simp only [State.runAccess, State.moveData]
  repeat' split
  all_goals nofun

theorem runEvent_legal (s : State) (e : Event) : s.runEvent e ≠ .refused .illegalConfiguration := by
  cases e with
  | exceptionToHyp => simp only [State.runEvent]; split <;> nofun
  | access a => exact runAccess_legal s a
  | warmReset | coldReset | writeSctlrEl2 | contextSync | tlbInvalidate | outside => nofun

/-- No instruction and no event blames the configuration: only the first test of the step does. -/
theorem step_illegal_iff (s : State) : step s = .refused .illegalConfiguration ↔ s.cfg.legal = false := by
  constructor
  · intro h
    by_contra hl
    rw [Bool.not_eq_false] at hl
    match ht : s.turns with
    | [] => exact runInstruction_legal _ (step_instruction hl (.inl ht) ▸ h)
    | .instruction :: rest => exact runInstruction_legal _ (step_instruction hl (.inr ⟨rest, ht⟩) ▸ h)
    | .around e :: rest => exact runEvent_legal _ _ (step_around hl ht ▸ h)
  · intro hl
    simp [step, hl]

end Sys2Proof.Machine

open Sys2Proof.Machine

/-- Settles O5: a bit has one kind, and each mask holds the bits of one. -/
theorem masksPartitionTheRegister : Obligations.MasksPartitionTheRegister := by
  intro c n hn
  simp only [BitVec.getLsbD_or, getLsbD_ctrlMask hn, getLsbD_res1Mask hn, getLsbD_res0Mask hn, getLsbD_razwiMask hn,
    getLsbD_raowiMask hn]
  cases bitKind c n <;> decide

/-- Settles O6: the masks hold the bits of the kinds of `bitKind`, and the statement's rows are read off that table. -/
theorem kindOfEachBit : Obligations.KindOfEachBit := by
  refine ⟨⟨rfl, rfl, rfl, rfl, rfl, rfl, rfl, rfl, rfl, rfl, rfl, rfl, rfl⟩, fun c => ⟨fun n hn => ?_, ?_⟩⟩
  · rw [getLsbD_ctrlMask hn, getLsbD_res1Mask hn, getLsbD_res0Mask hn, getLsbD_razwiMask hn, getLsbD_raowiMask hn]
    cases bitKind c n <;> rfl
  · simp only [List.forall_mem_cons, getLsbD_ctrlMask, getLsbD_res1Mask, getLsbD_res0Mask, getLsbD_razwiMask,
      getLsbD_raowiMask, Nat.reduceLT, decide_eq_true_iff, bitKind]
    refine ⟨by simp, ?bit31, ?bit25, ?bit8, ?bit7, ?bit5, ⟨?bit4, ?bit3, by simp⟩, by simp, by simp⟩
    case bit25 =>
      split
      · rfl
      · split <;> rfl
    all_goals split <;> rfl

/-- Settles O7: a control by whether it is settled, any other field by the fixed value of its kind. -/
theorem effectiveValueOfEachKind : Obligations.EffectiveValueOfEachKind := by
  intro c h d f
  refine ⟨eff_control, exists_eff_of_not_settled, fun h1 => ?_, fun h0 => ?_⟩
  · rw [getLsbD_fixedMask f.bit_lt] at h1
    have hk : bitKind c f.bit ≠ .control := fun hk => by simp [hk, BitKind.fixed] at h1
    rw [eff_of_not_control hk, h1]
  · rw [BitVec.getLsbD_or, getLsbD_res0Mask f.bit_lt, getLsbD_razwiMask f.bit_lt, Bool.or_eq_true,
      decide_eq_true_iff, decide_eq_true_iff] at h0
    rcases h0 with hk | hk <;> rw [eff_of_not_control (by simp [hk]), hk] <;> rfl

/-- Settles O8: each clause names a kind, which under its policy is writable or fixed. -/
theorem readAndWriteByKindOfBit : Obligations.ReadAndWriteByKindOfBit := by
  intro c s v n hn
  simp only [BitVec.getLsbD_or, getLsbD_ctrlMask hn, getLsbD_res1Mask hn, getLsbD_res0Mask hn, getLsbD_razwiMask hn,
    getLsbD_raowiMask hn, Bool.or_eq_true, decide_eq_true_iff]
  refine ⟨fun hk => ?control, fun hk hp => ?stored, fun hk hp => ?res1, fun hk hp => ?res0, fun hk => ?razwi,
    fun hk => ?raowi⟩
  case control => exact read_and_write_of_writable hn hk rfl s v
  case stored => rcases hk with hk | hk <;> exact read_and_write_of_writable hn hk (by rw [hp]; rfl) s v
  case res1 => exact read_and_write_of_fixed hn hk (by rw [hp]; rfl) s v
  case res0 => exact read_and_write_of_fixed hn hk (by rw [hp]; rfl) s v
  case razwi => exact read_and_write_of_fixed hn hk rfl s v
  case raowi => exact read_and_write_of_fixed hn hk rfl s v

/-- Settles O9: a read after a write is the read of the value written, and the rest is reading and writing bit by bit. -/
theorem readWriteLaws : Obligations.ReadWriteLaws := by
  intro c s v
  rw [readMasked_writeMasked]
  exact ⟨fun hp => by rw [readMasked, hp], writeMasked_readMasked c s, writeMasked_writeMasked c s v,
    readMasked_of_fixed_bits⟩

/-- Settles O10: the bit of each field in the constants of the reset. -/
theorem warmResetValueOfEachField : Obligations.WarmResetValueOfEachField := by
  intro c
  dsimp only
  refine ⟨fun hc => ?dssbs, fun hc => ?te, fun hc => ?ee, fun f hf hc => ?unknown, fun f hf hc => ?zero,
    fun f hf hc => ?one⟩
  case unknown =>
    have hbit : ∀ f ∈ [Field.wxn, .sed, .itd, .cp15ben, .a], (0x000801A2#32).getLsbD f.bit = true := by decide
    rw [reset_unknown_of_ctrl hc, hbit f hf, Bool.true_or]
  all_goals rw [reset_unknown_of_ctrl hc, reset_stored_of_ctrl hc]
  case zero =>
    simp only [List.mem_cons, List.not_mem_nil, or_false] at hf
    rcases hf with rfl | rfl | rfl <;> simp +contextual [Field.bit]
  case one =>
    simp only [List.mem_cons, List.not_mem_nil, or_false] at hf
    rcases hf with rfl | rfl <;> simp +contextual [Field.bit]
  all_goals simp [Field.bit]

/-- Settles O11: under `stored` the reset marks the reserved bits and a write reaches them; under `hardwired` they are
fixed. -/
theorem reservedBitsByPolicy : Obligations.ReservedBitsByPolicy := by
  intro c n h
  obtain ⟨hn, hk⟩ := bitKind_of_reserved h
  refine ⟨fun hp => ?_, fun hp r d => ?_⟩
  · have hw : (bitKind c n).writable c.resPolicy = true := by rcases hk with hk | hk <;> rw [hk, hp] <;> rfl
    refine ⟨?_, fun r v => ⟨?_, (read_and_write_of_writable hn rfl hw _ _).2⟩⟩
    · simp only [Hsctlr.reset, resetUnknown, BitVec.getLsbD_or (x := _ &&& _), getLsbD_maskIf, hp, h,
        beq_self_eq_true, Bool.and_true, Bool.or_true]
    · simp [getLsbD_writeMask hn, hw, hn]
  · have hw : (bitKind c n).writable c.resPolicy = false := by rcases hk with hk | hk <;> rw [hk, hp] <;> rfl
    rw [(read_and_write_of_fixed hn rfl hw _ 0#32).1, getLsbD_res1Mask hn]
    rcases hk with hk | hk <;> rw [hk] <;> rfl

/-- Settles O12: the masks are constants there, the known bits of the reset give the fixed part, and all the UNKNOWN bits
are controls, so the draw is read in each of them. -/
theorem firstReadAfterReset : Obligations.FirstReadAfterReset := by
  intro c u hel hp hssbs hme hsed hitd hbar hlsm
  have hctrl : ctrlMask c = 0xC20811BF#32 := by
    simp [ctrlMask, maskIf, hssbs, hme, hsed, hitd, hbar, hlsm]
  have hfixed : res1Mask c ||| raowiMask c = 0x30C50800#32 := by
    simp [res1Mask, raowiMask, maskIf, hme, hsed, hbar, hlsm]
  have hunknown : (Hsctlr.reset c).unknown = 0x000801A2#32 := by
    simp [Hsctlr.reset, resetUnknown, maskIf, hctrl, hel, hp]
  have hknown : (Hsctlr.reset c).stored &&& ~~~0x000801A2#32 &&& 0xC20811BF#32 ||| 0x30C50800#32 =
      0x30C50818#32 ||| maskIf c.resetDSSBS 0x80000000#32 ||| maskIf c.resetTE 0x40000000#32
        ||| maskIf c.resetEE 0x02000000#32 := by
    rw [show (Hsctlr.reset c).stored = resetStored c from rfl, resetStored, hctrl, hel]
    cases c.resetDSSBS <;> cases c.resetTE <;> cases c.resetEE <;> decide
  have hdraw : 0x000801A2#32 &&& 0xC20811BF#32 = 0x000801A2#32 := by decide
  rw [readMasked, hp, ← hknown]
  simp only [Hsctlr.value, hctrl, hunknown, BitVec.or_assoc, hfixed]
  rw [BitVec.and_or_distrib_right, BitVec.and_assoc u, hdraw, BitVec.or_assoc, BitVec.or_comm (u &&& _)]

/-- Settles O50: the write from outside leaves nothing of `S` UNKNOWN, so the MRC reads it. -/
theorem sctlrEl2WriteIsReadByMrc : Obligations.SctlrEl2WriteIsReadByMrc := by
  intro s t u v i rt ht hi ha hu
  obtain rfl : s.writeSctlrEl2 v = t := by simpa [State.runEvent] using ht
  rw [exec_mrc_readReg hi ha hu, readHsctlr_known rfl]
  rfl

/-- Settles O17: without FEAT_AA32EL2 the first test of the access check answers. -/
theorem absentRegisterIsUndefined : Obligations.AbsentRegisterIsUndefined := by
  intro s i rt hf hi
  have hv : s.accessCheck = .undefined := accessCheck_absent hf
  rcases hi with hi | hi
  · rw [exec_mrc hi, State.withAccess, hv]
  · obtain ⟨v, -, he⟩ := exec_mcr hi
    rw [he, State.withAccess, hv]

/-- Settles O53: the step at an event's turn. -/
theorem stepRunsThePendingEvent : Obligations.StepRunsThePendingEvent :=
  fun _ _ _ hl ht => step_around hl ht

/-- Settles O54: the step refuses what is not legal, and not legal is what breaks a constraint of R3. -/
theorem illegalConfigurationIsRefused : Obligations.IllegalConfigurationIsRefused := by
  intro s
  rw [step_illegal_iff, legal_eq_false_iff]
end

section
/-! PROOFS of the family 20_memory: what HSCTLR changes about memory accesses. Each check of a data access (R67, R68, R72)
is said once, as an `↔` with what the spec asks, and so is each way that an access or a list of accesses can be stopped;
the statements about accesses are read off these. Fetches, cacheability and table walks are evaluated at their cases. -/

namespace Sys2Proof.Machine

/-! ## What the checks of a data access ask (R67, R68, R72) -/

theorem misaligned_iff {a : Word} {n : Nat} : misaligned a n = true ↔ a.toNat % n ≠ 0 := bne_iff_ne

theorem alwaysChecked_iff {c : AccessClass} :
    alwaysChecked c = true ↔ (∃ status, c = .exclusive status) ∨ c = .ordered := by
  cases c <;> simp [alwaysChecked]

theorem isNonGatheringDevice_iff {m : MemType} :
    isNonGatheringDevice m = true ↔ m = .deviceNGRE ∨ m = .deviceNGnRE ∨ m = .deviceNGnRnE := by
  cases m <;> decide

theorem isLiteralLoad_iff {a : Access} :
    isLiteralLoad a = true ↔ a.cls = .plain ∧ (∃ r, a.op = .load r) ∧ a.size = .word := by
  obtain ⟨cls, op, size, addr⟩ := a
  cases cls <;> cases op <;> cases size <;> simp [isLiteralLoad]

theorem storesTo_eq_false_iff {a : Access} {x : Word} :
    storesTo a x = false ↔ (∃ r, a.op = .load r) ∨ elementSize a.size ≤ (x - a.addr).toNat := by
  obtain ⟨cls, op, size, addr⟩ := a
  cases op <;> simp [storesTo]

section
variable {s : State} (h : s.atHyp = true) {k : Nat} {a : Access}
include h

theorem alignmentFails_iff : s.alignmentFails k a = true ↔ a.addr.toNat % elementSize a.size ≠ 0 ∧
    (((∃ status, a.cls = .exclusive status) ∨ a.cls = .ordered) ∨ s.eff k .a = true) := by
  simp only [State.alignmentFails, h, Bool.true_and, Bool.and_eq_true, Bool.or_eq_true, misaligned_iff,
    alwaysChecked_iff]

theorem multipleTraps_iff : s.multipleTraps k a = true ↔ (a.cls = .multiple ∧
    ((s.stage1 a.addr).memType = .deviceNGRE ∨ (s.stage1 a.addr).memType = .deviceNGnRE ∨
      (s.stage1 a.addr).memType = .deviceNGnRnE)) ∧ s.eff k .ntlsmd = false := by
  simp only [State.multipleTraps, h, Bool.true_and, Bool.and_eq_true, beq_iff_eq, isNonGatheringDevice_iff,
    Bool.not_eq_true']

end

/-! ## The fault of one access (R123 does not order the two) -/

section
variable {s : State} {k : Nat} {a : Access}

theorem accessFault_eq_none_iff :
    s.accessFault k a = none ↔ s.alignmentFails k a = false ∧ s.multipleTraps k a = false := by
  cases hf : s.alignmentFails k a <;> cases ht : s.multipleTraps k a <;> simp [State.accessFault, hf, ht]

theorem accessFault_of_alignmentFails (hf : s.alignmentFails k a = true) (ht : s.multipleTraps k a = false) :
    s.accessFault k a = some .dataAbortAlignment := by
  simp only [State.accessFault, hf, ht]

theorem accessFault_of_multipleTraps (ht : s.multipleTraps k a = true) :
    s.accessFault k a = some .stage1Alignment ∨
      (s.alignmentFails k a = true ∧ s.accessFault k a = some .dataAbortAlignment) := by
  cases hf : s.alignmentFails k a with
  | false => exact .inl (by simp only [State.accessFault, hf, ht])
  | true =>
    simp only [State.accessFault, hf, ht, true_and]
    split
    · exact .inr rfl
    · exact .inl rfl

theorem multipleTraps_of_accessFault (h : s.accessFault k a = some .stage1Alignment) : s.multipleTraps k a = true := by
  by_contra ht
  rw [Bool.not_eq_true] at ht
  cases hf : s.alignmentFails k a <;> simp [State.accessFault, hf, ht] at h

/-! ## One access as a step of the machine around -/

theorem runAccess_of_accessFault {f : Fault} (h : s.accessFault 0 a = some f) : s.runAccess a = .fault f := by
  simp only [State.runAccess, h]

/-- A misaligned access that no check stops is refused (D24, log 25). -/
theorem runAccess_of_misaligned (h : s.accessFault 0 a = none) (hm : a.addr.toNat % elementSize a.size ≠ 0) :
    s.runAccess a = .refused .misalignedAccess := by
  simp only [State.runAccess, h, misaligned_iff.2 hm, if_true]

/-- An access that no check stops can only fault by reading a byte that nothing has written. -/
theorem moveData_fault {f : Fault} (h : s.moveData a = .fault f) : f = .unwrittenMemory := by
  simp only [State.moveData] at h
  split at h
  · split at h <;> cases h
    rfl
  · split at h <;> cases h

theorem runAccess_fault {f : Fault} (h : s.runAccess a = .fault f) :
    s.accessFault 0 a = some f ∨ f = .unwrittenMemory := by
  simp only [State.runAccess] at h
  split at h
  · next hf => cases h; exact .inl hf
  · split at h
    · cases h
    · exact .inr (moveData_fault h)

end

/-! ## The accesses of an instruction outside the spec -/

/-- An access that is stopped whatever is drawn stops the list it stands in, if no access before it does. -/
theorem firstAccessFault_ne_none {s : State} {l : List Access} {a : Access} (ha : a ∈ l)
    (h : ∀ k, s.accessFault k a ≠ none) (k : Nat) : s.firstAccessFault k l ≠ none := by
  induction l generalizing k with
  | nil => cases ha
  | cons b rest ih =>
    simp only [State.firstAccessFault]
    split
    · nofun
    · next hb =>
      rcases List.mem_cons.1 ha with rfl | ha
      · exact absurd hb (h k)
      · exact ih ha _

section
variable {s : State} {admits : Access → Bool} {o : OutsideInstr}

theorem outsideInstr_of_none (h : s.firstAccessFault 8 (o.accesses.filter admits) = none) :
    s.outsideInstr admits o = .next (s.applyOutside (storesWithin (o.accesses.filter admits) o.effect)) := by
  simp only [State.outsideInstr, h]

theorem outsideInstr_of_some (h : s.firstAccessFault 8 (o.accesses.filter admits) ≠ none) :
    s.outsideInstr admits o = .fault .dataAbortAlignment ∨ s.outsideInstr admits o = .fault .stage1Alignment := by
  obtain ⟨f, hf⟩ := Option.ne_none_iff_exists'.1 h
  have he : s.outsideInstr admits o = .fault f := by simp only [State.outsideInstr, hf]
  rcases firstAccessFault_some hf with rfl | rfl
  · exact .inl he
  · exact .inr he

/-- An instruction outside the spec completes or ends in one of the two faults. -/
theorem outsideInstr_outcome (s : State) (admits : Access → Bool) (o : OutsideInstr) :
    (∃ t, s.outsideInstr admits o = .next t) ∨ s.outsideInstr admits o = .fault .dataAbortAlignment ∨
      s.outsideInstr admits o = .fault .stage1Alignment := by
  by_cases h : s.firstAccessFault 8 (o.accesses.filter admits) = none
  · exact .inl ⟨_, outsideInstr_of_none h⟩
  · exact .inr (outsideInstr_of_some h)

end

/-- An effect whose stores are held to some accesses leaves every byte that none of them stores to. -/
theorem readByte_applyOutside_storesWithin (s : State) {l : List Access} {x : Word}
    (h : ∀ a ∈ l, storesTo a x = false) (o : Outside) :
    (s.applyOutside (storesWithin l o)).readByte x = s.readByte x := by
  rw [State.readByte, applyOutside_mem]
  refine read_writeAll_other _ _ _ fun st hst hx => ?_
  obtain ⟨-, hany⟩ := List.mem_filter.1 hst
  obtain ⟨a, ha, hs⟩ := List.any_eq_true.1 hany
  rw [hx, h a ha] at hs
  cases hs

/-- A class instruction that R103 does not make UNDEFINED is an instruction outside the spec. -/
theorem classInstr_notUnderIt {s : State} {i : Instr} (h : NotUnderIt s i) (hi : i.iset = .t32) (hw1 : Half)
    (admits : Access → Bool) : s.classInstr hw1 admits = s.outsideInstr admits (Config.outsideScope s.draws) := by
  simp only [State.classInstr, afterItFault_notUnderIt h hi]

/-! ## Two bytes of memory: a halfword, and a table entry that shows the byte order -/

theorem readBytes_two {s : State} {a : Word} {b0 b1 : Byte} (h0 : s.readByte a = some b0)
    (h1 : s.readByte (a + 1#32) = some b1) : Memory.readBytes s.mem a 2 = some [b0, b1] := by
  rw [State.readByte] at h0 h1
  simp only [Memory.readBytes, h0, h1]

theorem joinBytes_two (big : Bool) (b0 b1 : Byte) :
    joinBytes big [b0, b1] = if big then b0.toNat * 256 + b1.toNat else b1.toNat * 256 + b0.toNat := by
  cases big <;> simp [joinBytes]

/-! ## Fetches that are not permitted (R65) -/

section
variable {s : State}

theorem fetch_of_first_denied (h : s.permitFetch 4 s.pc = false) : s.fetch = .fault .executeNever := by
  simp [State.fetch, h]

theorem fetchSize_wide {b0 b1 : Byte} (hi : s.iset = .t32) (h0 : s.readByte s.pc = some b0)
    (h1 : s.readByte (s.pc + 1#32) = some b1) (hw : isWide (halfOfBytes b0 b1) = true) : s.fetchSize = some 4 := by
  simp only [State.fetchSize, hi, readBytes_two h0 h1, hw, if_true]

theorem fetch_of_second_denied (hi : s.iset = .t32) (hn : s.fetchSize = some 4)
    (h : s.permitFetch 5 (s.pc + 2#32) = false) : s.fetch = .fault .executeNever := by
  cases h4 : s.permitFetch 4 s.pc with
  | false => exact fetch_of_first_denied h4
  | true => simp [State.fetch, State.fetchPermitted, h4, hn, hi, h]

theorem step_of_fetch_fault {f : Fault} (hl : s.cfg.legal = true)
    (ht : s.turns = [] ∨ ∃ rest, s.turns = .instruction :: rest)
    (h : ({ s with draws := s.draws + 1, turns := s.turns.tail } : State).fetch = .fault f) :
    step s = .fault f := by
  rw [step_instruction hl ht, State.runInstruction, h]
  rfl

end

end Sys2Proof.Machine

open Sys2Proof Sys2Proof.Machine

/-- Settles O39: the check fails exactly in the first case, and in the second no check stops the access. -/
theorem alignmentCheckAtEL2 : Obligations.AlignmentCheckAtEL2 := by
  intro s a hs
  refine ⟨fun hc hm ht => ?_, fun ha hx ho => ?_⟩
  · have hf : s.alignmentFails 0 a = true := (alignmentFails_iff hs).2 ⟨hm, by tauto⟩
    exact runAccess_of_accessFault (accessFault_of_alignmentFails hf ht)
  · have hf : s.alignmentFails 0 a = false := by
      rw [← Bool.not_eq_true, alignmentFails_iff hs]
      rintro ⟨-, (⟨status, hx'⟩ | ho') | ha'⟩
      · exact hx status hx'
      · exact ho ho'
      · simp [ha] at ha'
    exact ⟨hf, fun hm ht => runAccess_of_misaligned (accessFault_eq_none_iff.2 ⟨hf, ht⟩) hm⟩

/-- Settles O40: a trapped access has one of the two faults, and the stage 1 fault is that of a trapped access only. -/
theorem deviceMultipleIsTrapped : Obligations.DeviceMultipleIsTrapped := by
  intro s a hs
  refine ⟨fun hn hc hd => ?_, fun hno hrun => ?_⟩
  · rcases accessFault_of_multipleTraps ((multipleTraps_iff hs).2 ⟨⟨hc, hd⟩, hn⟩) with hf | ⟨hal, hf⟩
    · exact .inl (runAccess_of_accessFault hf)
    · obtain ⟨hm, hk⟩ := (alignmentFails_iff hs).1 hal
      have ha : s.eff 0 .a = true := by simpa [hc] using hk
      exact .inr ⟨hm, ha, runAccess_of_accessFault hf⟩
  · rcases runAccess_fault hrun with hf | hf
    · obtain ⟨⟨hc, hd⟩, hn⟩ := (multipleTraps_iff hs).1 (multipleTraps_of_accessFault hf)
      rcases hno with hn' | hg | hg | hc'
      · simp [hn] at hn'
      · simp [hg] at hd
      · simp [hg] at hd
      · exact hc' hc
    · cases hf

/-- Settles O41: the accesses that the instruction makes are those of the list that is checked. -/
theorem outsideAccessesAreChecked : Obligations.OutsideAccessesAreChecked := by
  refine ⟨fun s admits o hs => ⟨fun hfree => ?completes, fun hstop => ?stopped, outsideInstr_outcome s admits o⟩,
    fun s admits o hs => ⟨_, outsideInstr_completes (fun k a _ => accessFault_notHyp hs k a) o⟩,
    fun s hw1 hw2 => ⟨fun h => classInstr_notUnderIt h rfl hw1 _, fun h => classInstr_notUnderIt h rfl hw1 _,
      fun h => classInstr_notUnderIt h rfl hw1 _, ?noAccess⟩,
    fun a => isLiteralLoad_iff⟩
  case completes =>
    have hnone : ∀ k, ∀ a ∈ o.accesses.filter admits, s.accessFault k a = none := by
      intro k a ha
      obtain ⟨hal, hmt⟩ := hfree k a (List.mem_filter.1 ha)
      rw [accessFault_eq_none_iff, ← Bool.not_eq_true, ← Bool.not_eq_true, alignmentFails_iff hs, multipleTraps_iff hs]
      exact ⟨hal, hmt⟩
    refine ⟨_, outsideInstr_of_none (firstAccessFault_none hnone 8), fun x hx => ?_⟩
    exact readByte_applyOutside_storesWithin s
      (fun a ha => storesTo_eq_false_iff.2 (hx a (List.mem_filter.1 ha))) o.effect
  case stopped =>
    obtain ⟨a, hmake, hstop⟩ := hstop
    refine outsideInstr_of_some (firstAccessFault_ne_none (List.mem_filter.2 hmake) (fun k hk => ?_) 8)
    obtain ⟨hal, hmt⟩ := accessFault_eq_none_iff.1 hk
    rw [← Bool.not_eq_true, alignmentFails_iff hs] at hal
    rw [← Bool.not_eq_true, multipleTraps_iff hs] at hmt
    rcases hstop with ⟨hm, hc⟩ | ⟨htr, hn⟩
    · exact hal ⟨hm, hc.imp_right fun h => h k⟩
    · exact hmt ⟨htr, hn k⟩
  case noAccess =>
    rintro i (rfl | rfl | rfl) h <;> exact classInstr_notUnderIt h rfl hw1 _

/-- Settles O42: the permission by its definition; a step ends in the fault of its fetch, at the first access or at the
second halfword's. -/
theorem writableIsExecuteNeverUnderWxn : Obligations.WritableIsExecuteNeverUnderWxn := by
  refine ⟨fun s k a => ⟨fun hs => ⟨?permitted, fun hm => ?mOff⟩, fun hs => ?ungoverned⟩, fun s hl ht => ?stops⟩
  case permitted =>
    simp only [State.permitFetch, State.stage1Enabled, hs, if_true]
    cases (s.stage1 a).write <;> cases s.eff k .m <;> cases s.eff k .wxn <;> rfl
  case mOff => simp [State.permitFetch, State.stage1Enabled, hs, hm]
  case ungoverned => simp [State.permitFetch, hs]
  case stops =>
    exact ⟨fun h => step_of_fetch_fault hl ht (fetch_of_first_denied h), fun b0 b1 hi h0 h1 hw h =>
      step_of_fetch_fault hl ht (fetch_of_second_denied hi (fetchSize_wide hi h0 h1 hw) h)⟩

/-- Settles O44: both walks take their byte order from EE. -/
theorem walkByteOrderByEE : Obligations.WalkByteOrderByEE := by
  intro s k walk a b0 b1 hf hw h0 h1
  have hbig : s.walkBigEndian k walk = some (s.eff k .ee) := by
    rcases hw with rfl | rfl <;> simp only [State.walkBigEndian, hf, if_true]
  simp only [State.readTableEntry, hbig, readBytes_two h0 h1, joinBytes_two]

/-- Settles O43: at EL2 the answer is the control's; the PL1&0 regime has the same answer with and without
FEAT_AA32EL2. -/
theorem cacheabilityByIAndC : Obligations.CacheabilityByIAndC := by
  intro s k
  refine ⟨fun hf => ?el2, ?walk, fun el hel => ?lower⟩
  case el2 =>
    simp only [State.cacheability, hf, if_true, cachedWhen, true_and]
    intro hm
    simp [State.fetchTypeDisabled, State.stage1Enabled, hf, hm]
  case walk => simp only [State.cacheability, ite_self]
  case lower => rcases hel with rfl | rfl <;> simp only [State.cacheability, ite_self, and_self]

/-- Settles O47: the order by its definition, at EL2 by LSMAOE and elsewhere not HSCTLR's. -/
theorem multipleOrderByLsmaoe : Obligations.MultipleOrderByLsmaoe := by
  intro s k
  cases hs : s.atHyp with
  | false => simp [State.multipleOrder, hs]
  | true => cases hl : s.eff k .lsmaoe <;> simp [State.multipleOrder, hs, hl]
end

section
/-! PROOFS of the family 30_encoding: decoding and encoding agree. The layout of R82 is taken apart and put together once;
its five rows of the table (MRC, MCR, three barriers) are one type, `SysMoveRow`, so that A32 and T32, decoder and encoder
are each said once for all five. `decode` is then an `↔` with the bytes of a word, of two halfwords or of one, and both
directions of the round trip are read off. The forms that R84 refuses and the step that runs the decoded bytes follow. -/

namespace Sys2Proof.Machine

open Laws.EncodeLength (halfOfBytes_bytesOfHalf firstHalf_single)

/-! ## Bytes in memory order (D12) -/

theorem bytesOfHalf_halfOfBytes (b0 b1 : Byte) : bytesOfHalf (halfOfBytes b0 b1) = [b0, b1] := by
  simp only [bytesOfHalf, halfOfBytes, BitVec.extractLsb'_append_eq_left, BitVec.extractLsb'_append_eq_right]

theorem wordOfBytes_bytesOfWord (w : Word) :
    wordOfBytes (w.extractLsb' 0 8) (w.extractLsb' 8 8) (w.extractLsb' 16 8) (w.extractLsb' 24 8) = w := by
  simp (disch := rfl) only [wordOfBytes, BitVec.extractLsb'_append_extractLsb'_eq_extractLsb']
  exact BitVec.extractLsb'_eq_self

/-- Stated of every word made of the four bytes, as `wordOfBytes` makes one. -/
theorem bytesOfWord_of_append {b0 b1 b2 b3 : Byte} {w : BitVec _} (h : w = b3 ++ b2 ++ b1 ++ b0) :
    bytesOfWord w = [b0, b1, b2, b3] := by
  subst h
  simp (disch := decide) only [bytesOfWord, BitVec.extractLsb'_append_eq_of_le, BitVec.extractLsb'_append_eq_of_add_le,
    Nat.reduceSub, BitVec.extractLsb'_eq_self]

theorem bytesOfWord_wordOfBytes (b0 b1 b2 b3 : Byte) : bytesOfWord (wordOfBytes b0 b1 b2 b3) = [b0, b1, b2, b3] :=
  bytesOfWord_of_append rfl

theorem halves_append (w : Word) : w.extractLsb' 16 16 ++ w.extractLsb' 0 16 = w :=
  (BitVec.extractLsb'_append_extractLsb'_eq_extractLsb' rfl).trans BitVec.extractLsb'_eq_self

theorem bytesOfPair_append (hw1 hw2 : Half) : bytesOfPair (hw1 ++ hw2) = bytesOfHalf hw1 ++ bytesOfHalf hw2 := by
  simp only [bytesOfPair, BitVec.extractLsb'_append_eq_left, BitVec.extractLsb'_append_eq_right]

/-! ## The layout of R82: its fields, and the word from its fields -/

theorem extractLsb'_one {n : Nat} (x : BitVec n) (k : Nat) : x.extractLsb' k 1 = BitVec.ofBool (x.getLsbD k) := by
  ext i hi
  simp [show i = 0 by omega]

section
variable {cond : BitVec 4} {read : Bool} {sel : Selector} {rt : BitVec 4}

/-- Stated of every word of the layout, as `sysMove` makes one. -/
theorem fields_of_layout {w : BitVec _} (h : w = cond ++ 0b1110#4 ++ sel.opc1 ++ BitVec.ofBool read ++ sel.crn ++ rt ++
      sel.coproc ++ sel.opc2 ++ 0b1#1 ++ sel.crm) :
    w.extractLsb' 28 4 = cond ∧ w.extractLsb' 20 1 = BitVec.ofBool read ∧ selectorOf w = sel ∧ w.extractLsb' 12 4 = rt ∧
      w.extractLsb' 24 4 = 0b1110#4 ∧ w.extractLsb' 4 1 = 0b1#1 := by
  subst h
  simp (disch := decide) only [selectorOf, BitVec.extractLsb'_append_eq_of_le, BitVec.extractLsb'_append_eq_of_add_le,
    Nat.reduceSub, BitVec.extractLsb'_eq_self, and_self]

theorem sysMove_cond : (sysMove cond read sel rt).extractLsb' 28 4 = cond := (fields_of_layout rfl).1

theorem sysMove_read : (sysMove cond read sel rt).getLsbD 20 = read := by
  obtain ⟨-, h, -⟩ := fields_of_layout (w := sysMove cond read sel rt) rfl
  rwa [extractLsb'_one, BitVec.ofBool_eq_iff_eq] at h

theorem sysMove_selector : selectorOf (sysMove cond read sel rt) = sel := by
  obtain ⟨-, -, h, -⟩ := fields_of_layout (w := sysMove cond read sel rt) rfl
  exact h

theorem sysMove_rt : (sysMove cond read sel rt).extractLsb' 12 4 = rt := by
  obtain ⟨-, -, -, h, -⟩ := fields_of_layout (w := sysMove cond read sel rt) rfl
  exact h

theorem sysMove_isSysMove : isSysMove (sysMove cond read sel rt) = true := by
  obtain ⟨-, -, -, -, h24, h4⟩ := fields_of_layout (w := sysMove cond read sel rt) rfl
  rw [extractLsb'_one, show 0b1#1 = BitVec.ofBool true from rfl, BitVec.ofBool_eq_iff_eq] at h4
  rw [isSysMove, h24, h4]
  rfl

end

/-- A word of the layout is made of its fields. -/
theorem sysMove_of_isSysMove {w : Word} (h : isSysMove w = true) :
    w = sysMove (w.extractLsb' 28 4) (w.getLsbD 20) (selectorOf w) (w.extractLsb' 12 4) := by
  simp only [isSysMove, Bool.and_eq_true, beq_iff_eq] at h
  obtain ⟨h24, h4⟩ := h
  have h4' : 0b1#1 = w.extractLsb' 4 1 := by rw [extractLsb'_one, h4]; rfl
  simp only [sysMove, selectorOf, ← extractLsb'_one, ← h24, h4']
  simp (disch := rfl) only [BitVec.extractLsb'_append_extractLsb'_eq_extractLsb']
  exact BitVec.extractLsb'_eq_self.symm

/-! ## The rows of the table in the layout of R82 -/

/-- The rows that A32 and T32 share: MRC and MCR of HSCTLR, and the CP15 barriers (R82, R83, R86). -/
inductive SysMoveRow where
  | mrc | mcr | dmb | dsb | isb

namespace SysMoveRow

/-- Bit 20 of the row. -/
def read : SysMoveRow → Bool
  | mrc => true
  | mcr | dmb | dsb | isb => false

/-- The selector fields of the row. -/
def selector : SysMoveRow → Selector
  | mrc | mcr => hsctlrSelector
  | dmb => dmbSelector
  | dsb => dsbSelector
  | isb => isbSelector

/-- The A32 instruction of the row. -/
def a32 (cond rt : BitVec 4) : SysMoveRow → Instr
  | mrc => .mrcA32 cond rt
  | mcr => .mcrA32 cond rt
  | dmb => .cp15dmbA32 cond rt
  | dsb => .cp15dsbA32 cond rt
  | isb => .cp15isbA32 cond rt

/-- The T32 instruction of the row. -/
def t32 (rt : BitVec 4) : SysMoveRow → Instr
  | mrc => .mrcT32 rt
  | mcr => .mcrT32 rt
  | dmb => .cp15dmbT32 rt
  | dsb => .cp15dsbT32 rt
  | isb => .cp15isbT32 rt

/-- The row of a bit 20 and selector fields, in the order of the decoder. -/
def find (read : Bool) (sel : Selector) : Option SysMoveRow :=
  if sel = hsctlrSelector then some (if read then mrc else mcr)
  else if read then none
  else if sel = dmbSelector then some dmb
  else if sel = dsbSelector then some dsb
  else if sel = isbSelector then some isb
  else none

/-- No two rows share bit 20 and the selector fields. -/
theorem find_eq_some_iff {read : Bool} {sel : Selector} {r : SysMoveRow} :
    find read sel = some r ↔ read = r.read ∧ sel = r.selector := by
  constructor
  · intro h
    unfold find at h
    split_ifs at h <;> cases h <;> simp_all [SysMoveRow.read, selector]
  · rintro ⟨rfl, rfl⟩
    cases r <;> rfl

theorem find_self (r : SysMoveRow) : find r.read r.selector = some r := find_eq_some_iff.2 ⟨rfl, rfl⟩

variable (r : SysMoveRow) (cond rt : BitVec 4)

theorem a32_iset : (r.a32 cond rt).iset = .a32 := by cases r <;> rfl
theorem t32_iset : (r.t32 rt).iset = .t32 := by cases r <;> rfl
theorem a32_wellFormed : (r.a32 cond rt).wellFormed = (cond != 0b1111#4) := by cases r <;> rfl
theorem t32_wellFormed : (r.t32 rt).wellFormed = true := by cases r <;> rfl
theorem encode_a32 : encode (r.a32 cond rt) = bytesOfWord (sysMove cond r.read r.selector rt) := by cases r <;> rfl
theorem encode_t32 : encode (r.t32 rt) = bytesOfPair (sysMove 0b1110#4 r.read r.selector rt) := by cases r <;> rfl

theorem a32_inj {r r' : SysMoveRow} {cond cond' rt rt' : BitVec 4} :
    r.a32 cond rt = r'.a32 cond' rt' ↔ r = r' ∧ cond = cond' ∧ rt = rt' := by
  cases r <;> cases r' <;> simp [a32]

end SysMoveRow

/-! ## Decoding an A32 word -/

section
variable {w : Word} {i : Instr}

theorem decodeA32_of_cond (h : w.extractLsb' 28 4 ≠ 0b1111#4) :
    decodeA32 w = if isSysMove w then (SysMoveRow.find (w.getLsbD 20) (selectorOf w)).map
      (SysMoveRow.a32 (w.extractLsb' 28 4) (w.extractLsb' 12 4)) else none := by
  simp only [decodeA32, if_neg h, SysMoveRow.find]
  split_ifs <;> rfl

theorem decodeA32_of_no_cond (h : w.extractLsb' 28 4 = 0b1111#4) :
    decodeA32 w = if w &&& 0xFFFFFDFF#32 = 0xF1010000#32 then some (.setendA32 (w.getLsbD 9)) else none := by
  simp only [decodeA32, if_pos h]

/-- A value known under a mask that leaves out one bit is known up to that bit. -/
theorem eq_or_bit_of_masked {n k : Nat} {x m v : BitVec n} (hm : m ||| BitVec.twoPow n k = BitVec.allOnes n)
    (h : x &&& m = v) : x = v ||| if x.getLsbD k then BitVec.twoPow n k else 0#n := by
  rw [← BitVec.and_twoPow, ← h, ← BitVec.and_or_distrib_left, hm, BitVec.and_allOnes]

/-- The word of an A32 SETEND: E at bit 9 (R86). -/
def setendWord (big : Bool) : Word := if big then 0xF1010200#32 else 0xF1010000#32

theorem setendWord_of_masked (h : w &&& 0xFFFFFDFF#32 = 0xF1010000#32) : w = setendWord (w.getLsbD 9) := by
  have e := eq_or_bit_of_masked (k := 9) rfl h
  cases hb : w.getLsbD 9 <;> rw [hb] at e <;> exact e

/-- The A32 words of the table: SETEND, and the rows of R82 and R86 with a condition. -/
theorem decodeA32_eq_some_iff : decodeA32 w = some i ↔
    (∃ big, i = .setendA32 big ∧ w = setendWord big) ∨
      ∃ (r : SysMoveRow) (cond rt : BitVec 4), cond ≠ 0b1111#4 ∧ i = r.a32 cond rt ∧
        w = sysMove cond r.read r.selector rt := by
  constructor
  · intro h
    by_cases hc : w.extractLsb' 28 4 = 0b1111#4
    · rw [decodeA32_of_no_cond hc] at h
      split_ifs at h with hm
      cases h
      exact .inl ⟨_, rfl, setendWord_of_masked hm⟩
    · rw [decodeA32_of_cond hc] at h
      split_ifs at h with hs
      obtain ⟨r, hr, rfl⟩ := Option.map_eq_some_iff.1 h
      obtain ⟨hread, hsel⟩ := SysMoveRow.find_eq_some_iff.1 hr
      exact .inr ⟨r, _, _, hc, rfl, by rw [← hread, ← hsel]; exact sysMove_of_isSysMove hs⟩
  · rintro (⟨big, rfl, rfl⟩ | ⟨r, cond, rt, hc, rfl, rfl⟩)
    · cases big <;> rfl
    · rw [decodeA32_of_cond (by rwa [sysMove_cond]), sysMove_isSysMove, sysMove_read, sysMove_selector, sysMove_cond,
        sysMove_rt, SysMoveRow.find_self]
      rfl

end

/-! ## Decoding a 32-bit T32 instruction -/

theorem hasT32Row_eq (w : Word) : hasT32Row w = (isSysMove w && w.extractLsb' 28 4 == 0b1110#4 &&
    (SysMoveRow.find (w.getLsbD 20) (selectorOf w)).isSome) := by
  simp only [hasT32Row, SysMoveRow.find]
  split_ifs <;> simp_all

/-- The 32-bit T32 words with a row of their own are the rows of R83 and R86. -/
theorem hasT32Row_iff {w : Word} :
    hasT32Row w = true ↔ ∃ (r : SysMoveRow) (rt : BitVec 4), w = sysMove 0b1110#4 r.read r.selector rt := by
  rw [hasT32Row_eq, Bool.and_eq_true, Bool.and_eq_true, beq_iff_eq]
  constructor
  · rintro ⟨⟨hs, hc⟩, hf⟩
    obtain ⟨r, hr⟩ := Option.isSome_iff_exists.1 hf
    obtain ⟨hread, hsel⟩ := SysMoveRow.find_eq_some_iff.1 hr
    exact ⟨r, _, by rw [← hread, ← hsel, ← hc]; exact sysMove_of_isSysMove hs⟩
  · rintro ⟨r, rt, rfl⟩
    rw [sysMove_isSysMove, sysMove_cond, sysMove_read, sysMove_selector, SysMoveRow.find_self]
    exact ⟨⟨rfl, rfl⟩, rfl⟩

section
variable {hw1 hw2 : Half}

/-- The MRC and MCR layout with "always" reads its row, and anything else is of class K1. -/
theorem decodeT32Wide_eq : decodeT32Wide hw1 hw2 =
    if isSysMove (hw1 ++ hw2) && (hw1 ++ hw2).extractLsb' 28 4 == 0b1110#4 then
      ((SysMoveRow.find ((hw1 ++ hw2).getLsbD 20) (selectorOf (hw1 ++ hw2))).map
        (SysMoveRow.t32 (hw2.extractLsb' 12 4))).getD (.itdK1 hw1 (some hw2))
    else .itdK1 hw1 (some hw2) := by
  simp only [decodeT32Wide, SysMoveRow.find]
  split_ifs <;> rfl

theorem decodeT32Wide_of_row {r : SysMoveRow} {rt : BitVec 4}
    (h : hw1 ++ hw2 = sysMove 0b1110#4 r.read r.selector rt) : decodeT32Wide hw1 hw2 = r.t32 rt := by
  have hrt : hw2.extractLsb' 12 4 = rt := by
    rw [← sysMove_rt (rt := rt), ← h, BitVec.extractLsb'_append_eq_of_add_le (by decide)]
  rw [decodeT32Wide_eq, h, sysMove_isSysMove, sysMove_cond, sysMove_read, sysMove_selector, hrt, SysMoveRow.find_self]
  rfl

theorem decodeT32Wide_of_no_row (h : hasT32Row (hw1 ++ hw2) = false) :
    decodeT32Wide hw1 hw2 = .itdK1 hw1 (some hw2) := by
  rw [hasT32Row_eq] at h
  rw [decodeT32Wide_eq]
  split_ifs with hs
  · rw [hs, Bool.true_and, Option.isSome_eq_false_iff, Option.isNone_iff_eq_none] at h
    rw [h]
    rfl
  · rfl

end

/-- hw1 of the MRC and MCR layout begins a 32-bit instruction: its bits 15:11 are 0b11101 (R83, R88). -/
theorem isWide_sysMove (read : Bool) (sel : Selector) (rt : BitVec 4) :
    isWide ((sysMove 0b1110#4 read sel rt).extractLsb' 16 16) = true := by
  obtain ⟨hcond, -, -, -, hop, -⟩ := fields_of_layout (w := sysMove 0b1110#4 read sel rt) rfl
  generalize sysMove 0b1110#4 read sel rt = w at hcond hop ⊢
  have hbit : w.getLsbD 27 = true := by simpa using congrArg (BitVec.getLsbD · 3) hop
  have htop : (w.extractLsb' 16 16).extractLsb' 11 5 = 0b11101#5 := calc
    (w.extractLsb' 16 16).extractLsb' 11 5 = w.extractLsb' 27 5 := by
      ext i hi
      simp [show 11 + i < 16 by omega, ← Nat.add_assoc]
    _ = w.extractLsb' 28 4 ++ w.extractLsb' 27 1 := by
      simp (disch := rfl) only [BitVec.extractLsb'_append_extractLsb'_eq_extractLsb']
    _ = 0b11101#5 := by rw [hcond, extractLsb'_one, hbit]; rfl
  rw [isWide, htop]
  rfl

/-! ## The patterns of R85 bit by bit -/

section
variable {h : Half}

theorem masked_iff {m v : Half} (hv : v &&& m = v) :
    (h &&& m == v) = true ↔ ∀ n < 16, m.getLsbD n = true → h.getLsbD n = v.getLsbD n := by
  rw [beq_iff_eq, BitVec.eq_of_getLsbD_eq_iff, ← hv]
  simp only [BitVec.getLsbD_and]
  refine forall₂_congr fun n _ => ?_
  cases m.getLsbD n <;> simp

theorem isK1_iff : isK1 h = true ↔ h.getLsbD 15 = true ∧ h.getLsbD 14 = true := by
  rw [isK1, masked_iff (by decide)]
  simp only [Nat.forall_lt_succ_right]
  simp [and_comm]

theorem isK2_iff : isK2 h = true ↔ h.extractLsb' 12 4 = 0b1011#4 := by
  rw [isK2, masked_iff (by decide), BitVec.eq_of_getLsbD_eq_iff]
  simp only [Nat.forall_lt_succ_right]
  simp

theorem isK3_iff : isK3 h = true ↔ h.extractLsb' 11 5 = 0b10100#5 := by
  rw [isK3, masked_iff (by decide), BitVec.eq_of_getLsbD_eq_iff]
  simp only [Nat.forall_lt_succ_right]
  simp

theorem isK4_iff : isK4 h = true ↔ h.extractLsb' 11 5 = 0b01001#5 := by
  rw [isK4, masked_iff (by decide), BitVec.eq_of_getLsbD_eq_iff]
  simp only [Nat.forall_lt_succ_right]
  simp

theorem isK5_iff : isK5 h = true ↔
    h.extractLsb' 12 4 = 0b0100#4 ∧ h.getLsbD 10 = true ∧ h.extractLsb' 3 4 = 0b1111#4 := by
  rw [isK5, masked_iff (by decide), BitVec.eq_of_getLsbD_eq_iff, BitVec.eq_of_getLsbD_eq_iff]
  simp only [Nat.forall_lt_succ_right]
  simp [and_assoc, and_comm]

theorem isK6_iff : isK6 h = true ↔
    h.extractLsb' 10 6 = 0b010001#6 ∧ h.getLsbD 7 = true ∧ h.extractLsb' 0 3 = 0b111#3 := by
  rw [isK6, masked_iff (by decide), BitVec.eq_of_getLsbD_eq_iff, BitVec.eq_of_getLsbD_eq_iff]
  simp only [Nat.forall_lt_succ_right]
  simp [and_assoc, and_comm]

theorem not_isWide_of_not_isK1 (hk : isK1 h = false) : isWide h = false := by
  rw [← Bool.not_eq_true, isK1_iff, not_and_or, Bool.not_eq_true, Bool.not_eq_true] at hk
  exact Laws.EncodeLength.narrow_of_bits hk

theorem isK1_of_isWide (hw : isWide h = true) : isK1 h = true := by
  by_contra hk
  rw [not_isWide_of_not_isK1 (Bool.not_eq_true _ ▸ hk)] at hw
  cases hw

end

/-! ## Decoding a 16-bit T32 instruction (R85, R86) -/

section
variable {h : Half}

/-- Two patterns whose values differ where both masks are set exclude each other. -/
theorem masked_eq_false {m v m' v' : Half} (e : (h &&& m == v) = true) (hne : v &&& m' ≠ v' &&& m) :
    (h &&& m' == v') = false := by
  rw [beq_iff_eq] at e
  rw [beq_eq_false_iff_ne]
  rintro rfl
  apply hne
  rw [← e, BitVec.and_assoc, BitVec.and_assoc, BitVec.and_comm m m']

theorem setendHalf_of_isSetendT16 (hs : isSetendT16 h = true) : h = setendHalf (h.getLsbD 3) := by
  have e := eq_or_bit_of_masked (k := 3) rfl (beq_iff_eq.1 hs)
  cases hb : h.getLsbD 3 <;> rw [hb] at e <;> exact e

theorem itHalf_of_isIt (hi : isIt h = true) : h = itHalf (h.extractLsb' 4 4) (h.extractLsb' 0 4) := by
  obtain ⟨hmask, -⟩ := Bool.and_eq_true_iff.1 hi
  have htop : 0xBF#8 = h.extractLsb' 8 8 := by
    have e := congrArg (BitVec.extractLsb' 8 8) (beq_iff_eq.1 hmask)
    rw [BitVec.extractLsb'_and, show (0xFF00#16).extractLsb' 8 8 = BitVec.allOnes 8 from rfl, BitVec.and_allOnes] at e
    exact e.symm
  rw [itHalf, htop]
  simp (disch := rfl) only [BitVec.extractLsb'_append_extractLsb'_eq_extractLsb']
  exact BitVec.extractLsb'_eq_self.symm

theorem decodeT32Narrow_setendHalf (big : Bool) : decodeT32Narrow (setendHalf big) = some (.setendT16 big) := by
  cases big <;> rfl

theorem decodeT32Narrow_itHalf : ∀ firstcond mask : BitVec 4, mask ≠ 0#4 →
    decodeT32Narrow (itHalf firstcond mask) = some (.itT16 firstcond mask) := by
  decide

theorem isK2_setendHalf (big : Bool) : isK2 (setendHalf big) = true := by cases big <;> rfl

theorem isK2_itHalf : ∀ firstcond mask : BitVec 4, isK2 (itHalf firstcond mask) = true := by decide

theorem not_isK1_of_isK2 (hk : isK2 h = true) : isK1 h = false := masked_eq_false hk (by decide)
theorem not_isK1_of_isK3 (hk : isK3 h = true) : isK1 h = false := masked_eq_false hk (by decide)
theorem not_isK1_of_isK4 (hk : isK4 h = true) : isK1 h = false := masked_eq_false hk (by decide)
theorem not_isK1_of_isK5 (hk : isK5 h = true) : isK1 h = false := masked_eq_false hk (by decide)
theorem not_isK1_of_isK6 (hk : isK6 h = true) : isK1 h = false := masked_eq_false hk (by decide)

/-- SETEND and IT, the two rows that come before the classes, lie in K2. -/
theorem not_setend_not_it_of_not_isK2 (h2 : isK2 h = false) : isSetendT16 h = false ∧ isIt h = false := by
  rw [← Bool.not_eq_true] at h2 ⊢
  rw [← Bool.not_eq_true]
  exact ⟨fun hs => h2 (setendHalf_of_isSetendT16 hs ▸ isK2_setendHalf _),
    fun hi => h2 (itHalf_of_isIt hi ▸ isK2_itHalf _ _)⟩

theorem decodeT32Narrow_itdK1 (hk : isK1 h = true) : decodeT32Narrow h = some (.itdK1 h none) := by
  obtain ⟨hs, hi⟩ := not_setend_not_it_of_not_isK2 (h := h) (masked_eq_false hk (by decide))
  simp only [decodeT32Narrow, hs, hi, hk, Bool.false_eq_true, if_false, if_true]

theorem decodeT32Narrow_itdK2 (hk : isK2 h = true) (hs : isSetendT16 h = false) (hi : isIt h = false) :
    decodeT32Narrow h = some (.itdK2 h) := by
  simp only [decodeT32Narrow, hs, hi, not_isK1_of_isK2 hk, hk, Bool.false_eq_true, if_false, if_true]

theorem decodeT32Narrow_itdK3 (hk : isK3 h = true) : decodeT32Narrow h = some (.itdK3 h) := by
  have h2 : isK2 h = false := masked_eq_false hk (by decide)
  obtain ⟨hs, hi⟩ := not_setend_not_it_of_not_isK2 h2
  simp only [decodeT32Narrow, hs, hi, not_isK1_of_isK3 hk, h2, hk, Bool.false_eq_true, if_false, if_true]

/-- A halfword below the classes K1 to K3 is decoded by the last three tests. -/
theorem decodeT32Narrow_of_low (h1 : isK1 h = false) (h2 : isK2 h = false) (h3 : isK3 h = false) :
    decodeT32Narrow h = if isK4 h then some (.itdK4 h) else if isK5 h then some (.itdK5 h)
      else if isK6 h then some (.itdK6 h) else none := by
  obtain ⟨hs, hi⟩ := not_setend_not_it_of_not_isK2 h2
  simp only [decodeT32Narrow, hs, hi, h1, h2, h3, Bool.false_eq_true, if_false]

theorem decodeT32Narrow_itdK4 (hk : isK4 h = true) : decodeT32Narrow h = some (.itdK4 h) := by
  rw [decodeT32Narrow_of_low (not_isK1_of_isK4 hk) (masked_eq_false hk (by decide)) (masked_eq_false hk (by decide)),
    if_pos hk]

theorem decodeT32Narrow_itdK5 (hk : isK5 h = true) (h4 : isK4 h = false) :
    decodeT32Narrow h = some (.itdK5 h) := by
  rw [decodeT32Narrow_of_low (not_isK1_of_isK5 hk) (masked_eq_false hk (by decide)) (masked_eq_false hk (by decide)), h4,
    hk]
  rfl

theorem decodeT32Narrow_itdK6 (hk : isK6 h = true) (h5 : isK5 h = false) (h4 : isK4 h = false) :
    decodeT32Narrow h = some (.itdK6 h) := by
  rw [decodeT32Narrow_of_low (not_isK1_of_isK6 hk) (masked_eq_false hk (by decide)) (masked_eq_false hk (by decide)), h4, h5,
    hk]
  rfl

/-- The tests that came before an answer are the checks of its well-formedness. -/
theorem encode_of_decodeT32Narrow {i : Instr} (hn : isWide h = false) (hd : decodeT32Narrow h = some i) :
    i.wellFormed = true ∧ i.iset = .t32 ∧ bytesOfHalf h = encode i := by
  unfold decodeT32Narrow at hd
  split_ifs at hd with hs hi h1 h2 h3 h4 h5 h6 <;> cases hd
  · exact ⟨rfl, rfl, congrArg bytesOfHalf (setendHalf_of_isSetendT16 hs)⟩
  · exact ⟨(Bool.and_eq_true_iff.1 hi).2, rfl, congrArg bytesOfHalf (itHalf_of_isIt hi)⟩
  all_goals exact ⟨by simp [Instr.wellFormed, *], rfl, rfl⟩

end

/-! ## Decoding bytes (D12, R88) -/

section
variable {bs rest : List Byte} {i : Instr}

theorem decode_a32_iff :
    decode .a32 bs = .ok (i, rest) ↔ ∃ w, decodeA32 w = some i ∧ bs = bytesOfWord w ++ rest := by
  constructor
  · intro h
    unfold decode at h
    split at h
    · split at h
      · next hd =>
        cases h
        exact ⟨_, hd, by rw [bytesOfWord_wordOfBytes]; rfl⟩
      · cases h
    · contradiction
    · cases h
  · rintro ⟨w, hd, rfl⟩
    simp only [bytesOfWord, List.cons_append, List.nil_append, decode, wordOfBytes_bytesOfWord, hd]

theorem decode_t32_iff : decode .t32 bs = .ok (i, rest) ↔
    (∃ hw1 hw2, isWide hw1 = true ∧ decodeT32Wide hw1 hw2 = i ∧ bs = bytesOfHalf hw1 ++ bytesOfHalf hw2 ++ rest) ∨
      ∃ hw1, isWide hw1 = false ∧ decodeT32Narrow hw1 = some i ∧ bs = bytesOfHalf hw1 ++ rest := by
  constructor
  · intro h
    unfold decode at h
    split at h
    · contradiction
    · split_ifs at h with hw
      · split at h
        · cases h
          refine .inl ⟨_, _, hw, rfl, ?_⟩
          rw [bytesOfHalf_halfOfBytes, bytesOfHalf_halfOfBytes]
          rfl
        · cases h
      · split at h
        · next hd =>
          cases h
          refine .inr ⟨_, Bool.not_eq_true _ ▸ hw, hd, ?_⟩
          rw [bytesOfHalf_halfOfBytes]
          rfl
        · cases h
    · cases h
  · rintro (⟨hw1, hw2, hw, rfl, rfl⟩ | ⟨hw1, hw, hd, rfl⟩)
    · simp only [bytesOfHalf, List.cons_append, List.nil_append, decode, halfOfBytes_bytesOfHalf, hw, if_true]
    · simp only [bytesOfHalf, List.cons_append, List.nil_append, decode, halfOfBytes_bytesOfHalf, hw, Bool.false_eq_true,
        if_false, hd]

end

/-! ## The round trip, row by row -/

section
variable (rest : List Byte)

theorem decode_encode_setendA32 (big : Bool) :
    decode .a32 (encode (.setendA32 big) ++ rest) = .ok (.setendA32 big, rest) :=
  decode_a32_iff.2 ⟨setendWord big, decodeA32_eq_some_iff.2 (.inl ⟨big, rfl, rfl⟩), rfl⟩

theorem decode_encode_rowA32 (r : SysMoveRow) {cond : BitVec 4} (hc : (cond != 0b1111#4) = true) (rt : BitVec 4) :
    decode .a32 (encode (r.a32 cond rt) ++ rest) = .ok (r.a32 cond rt, rest) :=
  decode_a32_iff.2 ⟨_, decodeA32_eq_some_iff.2 (.inr ⟨r, cond, rt, by simpa using hc, rfl, rfl⟩), by
    rw [SysMoveRow.encode_a32]⟩

theorem decode_encode_rowT32 (r : SysMoveRow) (rt : BitVec 4) :
    decode .t32 (encode (r.t32 rt) ++ rest) = .ok (r.t32 rt, rest) :=
  decode_t32_iff.2 (.inl ⟨_, _, isWide_sysMove r.read r.selector rt, decodeT32Wide_of_row (halves_append _), by
    rw [SysMoveRow.encode_t32, bytesOfPair]⟩)

theorem decode_encode_wideK1 {hw1 hw2 : Half} (hw : isWide hw1 = true) (hr : hasT32Row (hw1 ++ hw2) = false) :
    decode .t32 (encode (.itdK1 hw1 (some hw2)) ++ rest) = .ok (.itdK1 hw1 (some hw2), rest) :=
  decode_t32_iff.2 (.inl ⟨hw1, hw2, hw, decodeT32Wide_of_no_row hr, rfl⟩)

theorem decode_encode_narrow {i : Instr} {hw1 : Half} (hw : isWide hw1 = false) (hd : decodeT32Narrow hw1 = some i)
    (he : encode i = bytesOfHalf hw1) : decode .t32 (encode i ++ rest) = .ok (i, rest) :=
  decode_t32_iff.2 (.inr ⟨hw1, hw, hd, by rw [he]⟩)

theorem decode_encode_of_not_isK1 {i : Instr} {hw1 : Half} (hk : isK1 hw1 = false)
    (hd : decodeT32Narrow hw1 = some i) (he : encode i = bytesOfHalf hw1) :
    decode .t32 (encode i ++ rest) = .ok (i, rest) :=
  decode_encode_narrow rest (not_isWide_of_not_isK1 hk) hd he

end

/-! ## The words of MRC and MCR of HSCTLR in A32 (R81) -/

section
variable {w : Word} {cond rt : BitVec 4}

theorem decodeA32_eq_row_iff (r : SysMoveRow) :
    decodeA32 w = some (r.a32 cond rt) ↔ cond ≠ 0b1111#4 ∧ w = sysMove cond r.read r.selector rt := by
  rw [decodeA32_eq_some_iff]
  constructor
  · rintro (⟨big, h, -⟩ | ⟨r', cond', rt', hc, h, rfl⟩)
    · cases r <;> cases h
    · obtain ⟨rfl, rfl, rfl⟩ := SysMoveRow.a32_inj.1 h
      exact ⟨hc, rfl⟩
  · rintro ⟨hc, rfl⟩
    exact .inr ⟨r, cond, rt, hc, rfl, rfl⟩

theorem decodeA32_eq_mrc_iff : decodeA32 w = some (.mrcA32 cond rt) ↔
    cond ≠ 0b1111#4 ∧ w = sysMove cond true hsctlrSelector rt := decodeA32_eq_row_iff .mrc

theorem decodeA32_eq_mcr_iff : decodeA32 w = some (.mcrA32 cond rt) ↔
    cond ≠ 0b1111#4 ∧ w = sysMove cond false hsctlrSelector rt := decodeA32_eq_row_iff .mcr

theorem selectorOf_eq_hsctlr_iff : selectorOf w = hsctlrSelector ↔
    w.extractLsb' 8 4 = 0b1111#4 ∧ w.extractLsb' 21 3 = 0b100#3 ∧ w.extractLsb' 16 4 = 0b0001#4 ∧
      w.extractLsb' 0 4 = 0b0000#4 ∧ w.extractLsb' 5 3 = 0b000#3 := by
  rw [selectorOf, hsctlrSelector, Selector.mk.injEq]
  rfl

end

/-! ## The first halfword of a T32 instruction (R83) -/

theorem firstHalf_pair {i : Instr} {w : Word} (e : encode i = bytesOfPair w) : firstHalfOf i = w.extractLsb' 16 16 := by
  simp only [firstHalfOf, e, bytesOfPair, bytesOfHalf, List.cons_append, halfOfBytes_bytesOfHalf]

section
variable {h : Half}

theorem inItdClass_of_isK1 (hk : isK1 h = true) : inItdClass h = true := by simp [inItdClass, hk]
theorem inItdClass_of_isK2 (hk : isK2 h = true) : inItdClass h = true := by simp [inItdClass, hk]

end

theorem isK1_firstHalf {hw1 : Half} {hw2 : Option Half} (hw : (Instr.itdK1 hw1 hw2).wellFormed = true) :
    isK1 (firstHalfOf (.itdK1 hw1 hw2)) = true := by
  cases hw2 with
  | none =>
    rw [firstHalf_single (h := hw1) rfl]
    exact (Bool.and_eq_true_iff.1 hw).1
  | some hw2 =>
    rw [firstHalf_pair (i := .itdK1 hw1 (some hw2)) (bytesOfPair_append hw1 hw2).symm,
      BitVec.extractLsb'_append_eq_left]
    exact isK1_of_isWide (Bool.and_eq_true_iff.1 hw).1

theorem inItdClass_rowT32 (r : SysMoveRow) (rt : BitVec 4) : inItdClass (firstHalfOf (r.t32 rt)) = true := by
  rw [firstHalf_pair (r.encode_t32 rt)]
  exact inItdClass_of_isK1 (isK1_of_isWide (isWide_sysMove _ _ _))

/-! ## Refused forms of MRC and MCR (R84) -/

section
variable {s : State} {cond rt : BitVec 4}

/-- No rule gives `R[15]` a meaning (R40). -/
theorem readReg_15 (s : State) : s.readReg 15#4 = none := by
  simp [State.readReg]

/-- The access check refuses nothing of its own. -/
theorem withAccess_next_ne_refused (t : State) (r : Refusal) : s.withAccess (.next t) ≠ .refused r := by
  unfold State.withAccess
  cases s.accessCheck <;> nofun

theorem exec_mrcA32_refused (h : cond ≠ always ∨ rt = 15#4) : ∃ r, exec (.mrcA32 cond rt) s = .refused r := by
  simp only [exec, execMrcA32, bne_iff_ne]
  split_ifs with hc ha
  · exact ⟨_, rfl⟩
  · exact ⟨_, rfl⟩
  · obtain rfl := h.resolve_left hc
    exact absurd rfl ha

theorem exec_mcrA32_refused (h : cond ≠ always ∨ rt = 15#4) : ∃ r, exec (.mcrA32 cond rt) s = .refused r := by
  simp only [exec, execMcrA32, bne_iff_ne]
  split_ifs with hc
  · exact ⟨_, rfl⟩
  · obtain rfl := h.resolve_left hc
    rw [readReg_15]
    exact ⟨_, rfl⟩

theorem admittedT32_eq_false (h : rt = 13#4 ∨ rt = 15#4) : admittedT32 rt = false := by
  rcases h with rfl | rfl <;> rfl

theorem exec_mrcT32_refused (h : rt = 13#4 ∨ rt = 15#4 ∨ s.inItBlock = true) (hn : NotUnderIt s (.mrcT32 rt)) :
    ∃ r, exec (.mrcT32 rt) s = .refused r := by
  simp only [exec, execMrcT32, afterItFault_notUnderIt hn rfl]
  cases hb : s.inItBlock with
  | true => exact ⟨_, rfl⟩
  | false =>
    rw [admittedT32_eq_false (by simpa [hb] using h)]
    exact ⟨_, rfl⟩

theorem exec_mcrT32_refused (h : rt = 13#4 ∨ rt = 15#4 ∨ s.inItBlock = true) (hn : NotUnderIt s (.mcrT32 rt)) :
    ∃ r, exec (.mcrT32 rt) s = .refused r := by
  simp only [exec, execMcrT32, afterItFault_notUnderIt hn rfl]
  cases hb : s.inItBlock with
  | true => cases admittedT32 rt <;> cases s.readReg rt <;> exact ⟨_, rfl⟩
  | false =>
    rw [admittedT32_eq_false (by simpa [hb] using h)]
    exact ⟨_, rfl⟩

end

/-! ## The bytes at the pc and the step (D11, D12, R88) -/

theorem readBytes_length {m : Memory} {a : Word} {n : Nat} {bs : List Byte} (h : Memory.readBytes m a n = some bs) :
    bs.length = n := by
  induction n generalizing a bs with
  | zero => cases h; rfl
  | succ n ih =>
    simp only [Memory.readBytes] at h
    split at h <;> cases h
    next hr => rw [List.length_cons, ih hr]

theorem readBytes_take {m : Memory} {a : Word} {n k : Nat} {bs : List Byte} (h : Memory.readBytes m a n = some bs)
    (hk : k ≤ n) : Memory.readBytes m a k = some (bs.take k) := by
  induction k generalizing a n bs with
  | zero => rfl
  | succ k ih =>
    obtain ⟨n, rfl⟩ := Nat.exists_eq_succ_of_ne_zero (by omega : n ≠ 0)
    simp only [Memory.readBytes] at h ⊢
    split at h <;> cases h
    next hb hr => rw [hb, ih hr (by omega)]; rfl

section
variable {s : State} {n : Nat} {bs : List Byte} {i : Instr}

/-- The length that the fetch takes from the first halfword is that of the decoded instruction. -/
theorem fetchSize_of_decode (hb : Memory.readBytes s.mem s.pc n = some bs) (hd : decode s.iset bs = .ok (i, [])) :
    s.fetchSize = some n := by
  have hlen := readBytes_length hb
  cases hi : s.iset with
  | a32 =>
    rw [hi] at hd
    obtain ⟨w, -, rfl⟩ := decode_a32_iff.1 hd
    rw [State.fetchSize, hi, ← hlen]
    rfl
  | t32 =>
    rw [hi] at hd
    obtain ⟨hw1, hw2, hw, -, rfl⟩ | ⟨hw1, hw, -, rfl⟩ := decode_t32_iff.1 hd
    · have h2 := readBytes_take hb (show 2 ≤ n by rw [← hlen]; simp [bytesOfHalf])
      simp only [State.fetchSize, hi, h2, bytesOfHalf, List.cons_append, List.take, halfOfBytes_bytesOfHalf, hw, if_true,
        ← hlen]
      rfl
    · have h2 := readBytes_take hb (show 2 ≤ n by rw [← hlen]; simp [bytesOfHalf])
      simp [State.fetchSize, hi, h2, bytesOfHalf, halfOfBytes_bytesOfHalf, hw, ← hlen]

/-- A fetch that is permitted decodes the bytes at the pc. -/
theorem fetch_of_readBytes (hn : s.fetchSize = some n) (hb : Memory.readBytes s.mem s.pc n = some bs)
    (hp : s.fetchPermitted n = true) : s.fetch = s.decodeFetched bs := by
  have hp4 : s.permitFetch 4 s.pc = true := (Bool.and_eq_true_iff.1 hp).1
  simp only [State.fetch, hp4, hn, hp, hb, Bool.not_true, Bool.false_eq_true, if_false]

end

end Sys2Proof.Machine

open Sys2Proof Sys2Proof.Machine

/-- Settles O2: row by row, the encoding is a word, two halfwords or one that the decoder reads as the row. -/
theorem decodeOfEncode : Obligations.DecodeOfEncode := by
  intro i rest hw
  cases i with
  | mrcA32 cond rt => exact decode_encode_rowA32 rest .mrc hw rt
  | mcrA32 cond rt => exact decode_encode_rowA32 rest .mcr hw rt
  | cp15dmbA32 cond rt => exact decode_encode_rowA32 rest .dmb hw rt
  | cp15dsbA32 cond rt => exact decode_encode_rowA32 rest .dsb hw rt
  | cp15isbA32 cond rt => exact decode_encode_rowA32 rest .isb hw rt
  | mrcT32 rt => exact decode_encode_rowT32 rest .mrc rt
  | mcrT32 rt => exact decode_encode_rowT32 rest .mcr rt
  | cp15dmbT32 rt => exact decode_encode_rowT32 rest .dmb rt
  | cp15dsbT32 rt => exact decode_encode_rowT32 rest .dsb rt
  | cp15isbT32 rt => exact decode_encode_rowT32 rest .isb rt
  | setendA32 big => exact decode_encode_setendA32 rest big
  | setendT16 big =>
    exact decode_encode_of_not_isK1 rest (not_isK1_of_isK2 (isK2_setendHalf big))
      (decodeT32Narrow_setendHalf big) rfl
  | itT16 firstcond mask =>
    exact decode_encode_of_not_isK1 rest (not_isK1_of_isK2 (isK2_itHalf firstcond mask))
      (decodeT32Narrow_itHalf firstcond mask (bne_iff_ne.1 hw)) rfl
  | itdK1 hw1 hw2 =>
    cases hw2 with
    | none =>
      simp only [Instr.wellFormed, Bool.and_eq_true, Bool.not_eq_true'] at hw
      obtain ⟨hk, hn⟩ := hw
      exact decode_encode_narrow rest hn (decodeT32Narrow_itdK1 hk) rfl
    | some hw2 =>
      simp only [Instr.wellFormed, Bool.and_eq_true, Bool.not_eq_true'] at hw
      obtain ⟨hn, hr⟩ := hw
      exact decode_encode_wideK1 rest hn hr
  | itdK2 hw1 =>
    simp only [Instr.wellFormed, Bool.and_eq_true, Bool.not_eq_true'] at hw
    obtain ⟨⟨hk, hs⟩, hi⟩ := hw
    exact decode_encode_of_not_isK1 rest (not_isK1_of_isK2 hk) (decodeT32Narrow_itdK2 hk hs hi) rfl
  | itdK3 hw1 =>
    exact decode_encode_of_not_isK1 rest (not_isK1_of_isK3 hw) (decodeT32Narrow_itdK3 hw) rfl
  | itdK4 hw1 =>
    exact decode_encode_of_not_isK1 rest (not_isK1_of_isK4 hw) (decodeT32Narrow_itdK4 hw) rfl
  | itdK5 hw1 =>
    simp only [Instr.wellFormed, Bool.and_eq_true, Bool.not_eq_true'] at hw
    obtain ⟨hk, h4⟩ := hw
    exact decode_encode_of_not_isK1 rest (not_isK1_of_isK5 hk) (decodeT32Narrow_itdK5 hk h4) rfl
  | itdK6 hw1 =>
    simp only [Instr.wellFormed, Bool.and_eq_true, Bool.not_eq_true'] at hw
    obtain ⟨⟨hk, h5⟩, h4⟩ := hw
    exact decode_encode_of_not_isK1 rest (not_isK1_of_isK6 hk) (decodeT32Narrow_itdK6 hk h5 h4) rfl

/-- Settles O3: what the decoder reads from a word, two halfwords or one is well formed and encodes to them. -/
theorem encodeOfDecode : Obligations.EncodeOfDecode := by
  intro is bs rest i h
  cases is with
  | a32 =>
    obtain ⟨w, hd, rfl⟩ := decode_a32_iff.1 h
    obtain ⟨big, rfl, rfl⟩ | ⟨r, cond, rt, hc, rfl, rfl⟩ := decodeA32_eq_some_iff.1 hd
    · exact ⟨rfl, rfl, rfl⟩
    · exact ⟨by rw [r.a32_wellFormed]; simpa using hc, r.a32_iset cond rt, by rw [r.encode_a32]⟩
  | t32 =>
    obtain ⟨hw1, hw2, hn, rfl, rfl⟩ | ⟨hw1, hn, hd, rfl⟩ := decode_t32_iff.1 h
    · rw [← bytesOfPair_append]
      cases hr : hasT32Row (hw1 ++ hw2) with
      | true =>
        obtain ⟨r, rt, e⟩ := hasT32Row_iff.1 hr
        rw [decodeT32Wide_of_row e, e]
        exact ⟨r.t32_wellFormed rt, r.t32_iset rt, by rw [r.encode_t32]⟩
      | false =>
        rw [decodeT32Wide_of_no_row hr]
        exact ⟨by simp [Instr.wellFormed, hn, hr], rfl, by rw [bytesOfPair_append]; rfl⟩
    · obtain ⟨hwf, hi, he⟩ := encode_of_decodeT32Narrow hn hd
      exact ⟨hwf, hi, by rw [he]⟩

/-- Settles O4: the decoder reads an MRC or MCR of HSCTLR from its own layout only. -/
theorem hsctlrAccessBySelectorFields : Obligations.HsctlrAccessBySelectorFields := by
  intro w hop hbit hcond
  have hw : w = sysMove (w.extractLsb' 28 4) (w.getLsbD 20) (selectorOf w) (w.extractLsb' 12 4) :=
    sysMove_of_isSysMove (by rw [isSysMove, hop, hbit]; rfl)
  simp only [decodeA32_eq_mrc_iff, decodeA32_eq_mcr_iff, ← selectorOf_eq_hsctlr_iff]
  refine ⟨⟨?selector, fun hsel => ?access⟩, ?mrc, ?mcr⟩
  case selector =>
    rintro ⟨cond, rt, ⟨-, rfl⟩ | ⟨-, rfl⟩⟩ <;> exact sysMove_selector
  case access =>
    rw [hsel] at hw
    refine ⟨w.extractLsb' 28 4, w.extractLsb' 12 4, ?_⟩
    cases hread : w.getLsbD 20 with
    | true => exact .inl ⟨hcond, hread ▸ hw⟩
    | false => exact .inr ⟨hcond, hread ▸ hw⟩
  all_goals
    rintro cond rt ⟨-, rfl⟩
    exact ⟨sysMove_read, sysMove_cond.symm, sysMove_rt.symm⟩

/-- Settles O23: a form that is not admitted meets a refusal before the access check, which refuses nothing. -/
theorem otherFormsAreRefused : Obligations.OtherFormsAreRefused := by
  intro s cond rt
  refine ⟨fun h => ⟨exec_mrcA32_refused h, exec_mcrA32_refused h⟩,
    fun h hn => ⟨exec_mrcT32_refused h hn, exec_mcrT32_refused h hn⟩, fun i r hi => ?_⟩
  rcases hi with hi | hi
  · rw [exec_mrc hi]
    exact withAccess_next_ne_refused _ r
  · obtain ⟨v, -, he⟩ := exec_mcr hi
    rw [he]
    exact withAccess_next_ne_refused _ r

/-- Settles O34: each class is its pattern bit by bit; the MRC and MCR layout lies in K1, SETEND and IT in K2. -/
theorem everyT32RowIsInAClass : Obligations.EveryT32RowIsInAClass := by
  refine ⟨fun h => ?patterns, fun i hw hi => ?rows⟩
  case patterns =>
    simp only [inItdClass, Bool.or_eq_true, or_assoc, isK1_iff, isK2_iff, isK3_iff, isK4_iff, isK5_iff, isK6_iff]
  case rows =>
    cases i with
    | mrcA32 | mcrA32 | setendA32 | cp15dmbA32 | cp15dsbA32 | cp15isbA32 => cases hi
    | mrcT32 rt => exact inItdClass_rowT32 .mrc rt
    | mcrT32 rt => exact inItdClass_rowT32 .mcr rt
    | cp15dmbT32 rt => exact inItdClass_rowT32 .dmb rt
    | cp15dsbT32 rt => exact inItdClass_rowT32 .dsb rt
    | cp15isbT32 rt => exact inItdClass_rowT32 .isb rt
    | setendT16 big =>
      rw [Laws.EncodeLength.firstHalf_single (h := setendHalf big) rfl]
      exact inItdClass_of_isK2 (isK2_setendHalf big)
    | itT16 firstcond mask =>
      rw [Laws.EncodeLength.firstHalf_single (h := itHalf firstcond mask) rfl]
      exact inItdClass_of_isK2 (isK2_itHalf firstcond mask)
    | itdK1 hw1 hw2 => exact inItdClass_of_isK1 (isK1_firstHalf hw)
    | itdK2 hw1 | itdK3 hw1 | itdK4 hw1 | itdK5 hw1 | itdK6 hw1 =>
      rw [Laws.EncodeLength.firstHalf_single (h := hw1) rfl]
      simp only [Instr.wellFormed, Bool.and_eq_true] at hw
      simp [inItdClass, hw]

/-- Settles O1: the words are the encodings of their instructions. -/
theorem specWordsDecode : Obligations.SpecWordsDecode :=
  ⟨decodeOfEncode (.mrcA32 14#4 14#4) [] rfl, decodeOfEncode (.mcrA32 14#4 12#4) [] rfl,
    decodeOfEncode (.mcrT32 1#4) [] rfl, decodeOfEncode (.setendA32 true) [] rfl,
    decodeOfEncode (.setendT16 true) [] rfl, decodeOfEncode (.itT16 0#4 0xC#4) [] rfl,
    decodeOfEncode (.cp15dmbA32 14#4 0#4) [] rfl, decodeOfEncode (.cp15isbT32 0#4) [] rfl⟩

/-- Settles O51: the fetch takes the length of the decoded instruction, and so decodes the bytes given. -/
theorem stepRunsTheDecodedInstruction : Obligations.StepRunsTheDecodedInstruction := by
  intro s n bs i hl ht s1 hb hd hp
  have hf : s1.fetch = .instr i := by
    rw [fetch_of_readBytes (fetchSize_of_decode (s := s1) hb hd) hb hp]
    simp only [State.decodeFetched, show decode s1.iset bs = _ from hd]
  rw [step_instruction hl ht, State.runInstruction, hf]
  rfl
end

section
/-! PROOFS of the family 40_hsctlr_access: access to HSCTLR. What stands behind the access check is said once per verdict,
and the check itself once per level; an admitted MRC or MCR is then one of these, and what it leaves is read off the laws
of the state. -/

namespace Sys2Proof.Machine

section
variable {s : State}

/-! ## The access check level by level (R90) -/

theorem accessCheck_el0 (hf : s.cfg.featAA32EL2 = true) (hl : s.el = .el0) : s.accessCheck = .undefined := by
  simp [State.accessCheck, hf, hl]

theorem accessCheck_el1 (hf : s.cfg.featAA32EL2 = true) (hl : s.el = .el1) : s.accessCheck =
    if s.el2Enabled = true ∧ s.cfg.featAA64EL2 = true ∧ s.el2UsingAArch32 = false ∧ s.hstrEl2T1 = true then
      .trapToEL2AArch64
    else if s.el2Enabled = true ∧ s.el2UsingAArch32 = true ∧ s.hstrT1 = true then .trapToHypAArch32
    else .undefined := by
  simp [State.accessCheck, hf, hl, and_assoc]

theorem accessCheck_el2 (hf : s.cfg.featAA32EL2 = true) (hl : s.el = .el2) : s.accessCheck = .allow := by
  simp [State.accessCheck, hf, hl]

theorem accessCheck_el3 (hf : s.cfg.featAA32EL2 = true) (hl : s.el = .el3) :
    s.accessCheck = if s.scrNS then .allow else .undefined := by
  cases hn : s.scrNS <;> simp [State.accessCheck, hf, hl, hn]

/-! ## What each verdict makes of an access (R91, R92) -/

theorem withAccess_undefined (h : s.accessCheck = .undefined) (go : Result State) :
    s.withAccess go = .fault .undefined := by
  simp only [State.withAccess, h]

theorem withAccess_trapToEL2AArch64 (h : s.accessCheck = .trapToEL2AArch64) (go : Result State) :
    s.withAccess go = .fault (.aarch32SystemAccessTrap .el2 trapEc) := by
  simp only [State.withAccess, h]

theorem withAccess_trapToHypAArch32 (h : s.accessCheck = .trapToHypAArch32) (go : Result State) :
    s.withAccess go = .next (s.takeHypTrap trapEc) := by
  simp only [State.withAccess, h]

theorem withAccess_allow (h : s.accessCheck = .allow) (go : Result State) : s.withAccess go = go := by
  simp only [State.withAccess, h]

/-! ## Admitted accesses -/

variable {i : Instr} {rt : BitVec 4}

/-- Before an admitted access stands the access check and nothing else. -/
theorem exec_admitted (hi : AdmittedMrc s i rt ∨ AdmittedMcr s i rt) : ∃ go, exec i s = s.withAccess go := by
  rcases hi with hi | hi
  · exact ⟨_, exec_mrc hi⟩
  · obtain ⟨v, -, he⟩ := exec_mcr hi
    exact ⟨_, he⟩

theorem exec_mrc_allow (hi : AdmittedMrc s i rt) (ha : s.accessCheck = .allow) :
    exec i s = .next (s.writeReg rt s.readHsctlr).pastA32 := by
  rw [exec_mrc hi, withAccess_allow ha]

theorem exec_mcr_allow (hi : AdmittedMcr s i rt) (ha : s.accessCheck = .allow) :
    ∃ v, s.readReg rt = some v ∧ exec i s = .next (s.writeHsctlr v).pastA32 := by
  obtain ⟨v, hv, he⟩ := exec_mcr hi
  exact ⟨v, hv, by rw [he, withAccess_allow ha]⟩

/-- A write of `S` leaves nothing UNKNOWN where only writable bits were (R36). -/
theorem write_unknown_eq_zero {c : Config} {h : Hsctlr} (hu : Within h.unknown (writeMask c)) (v : Word) :
    (h.write c v).unknown = 0#32 := by
  rw [write_unknown]
  exact hu

/-! ## What the operations of an access leave unchanged -/

variable (s)

theorem sameContext_writeReg_pastA32 (t : BitVec 4) (v : Word) : SameContext s (s.writeReg t v).pastA32 := by
  constructor <;> rfl

theorem sameContext_writeHsctlr_pastA32 (v : Word) : SameContext s (s.writeHsctlr v).pastA32 := by
  constructor <;> rfl

theorem sameInputs_takeHypTrap (ec : Nat) : SameInputs s (s.takeHypTrap ec) := by
  constructor <;> rfl

/-- A barrier writes neither `S` nor what is UNKNOWN of it: a synchronisation settles what is pending only (R144). -/
theorem barrier_sameS (b : Barrier) (holds : Bool) : SameS s (s.barrier b holds) := by
  rw [SameS, barrier_hsctlr]
  split <;> exact ⟨rfl, rfl⟩

theorem setEndian_sameS (holds big : Bool) : SameS s (s.setEndian holds big) := by
  rw [SameS, setEndian_hsctlr]
  exact ⟨rfl, rfl⟩

end

end Sys2Proof.Machine

open Sys2Proof Sys2Proof.Machine

/-- Settles O19: the MRC writes `R[t]` and the pc, and the value is the read of R35. -/
theorem mrcReadsHsctlr : Obligations.MrcReadsHsctlr := by
  intro s i rt hi ha
  have he : exec i s = .next (s.writeReg rt s.readHsctlr).pastA32 := exec_mrc_allow hi ha
  exact ⟨_, he, exec_mrc_readReg hi ha he, fun r hr => readReg_writeReg_other s hr _, rfl, rfl, rfl, rfl,
    sameContext_writeReg_pastA32 s rt _, fun _ => rfl, rfl⟩

/-- Settles O20: the MCR writes HSCTLR and the pc. -/
theorem mcrWritesHsctlr : Obligations.McrWritesHsctlr := by
  intro s i rt hi ha
  obtain ⟨v, hv, he⟩ := exec_mcr_allow hi ha
  exact ⟨_, v, he, hv, rfl, fun _ => rfl, rfl, rfl, rfl, sameContext_writeHsctlr_pastA32 s v, fun _ => rfl, rfl⟩

/-- Settles O21: the access behind the check is not reached. -/
theorem raisedAccessHasNoEffect : Obligations.RaisedAccessHasNoEffect := by
  intro s i rt hi
  obtain ⟨go, he⟩ := exec_admitted hi
  rw [he]
  exact ⟨fun h => withAccess_undefined h go, fun h => withAccess_trapToEL2AArch64 h go, fun h =>
    ⟨_, withAccess_trapToHypAArch32 h go, rfl, rfl, rfl, sameInputs_takeHypTrap s trapEc, fun _ => rfl⟩⟩

/-- Settles O22: the MCR leaves nothing UNKNOWN, so the MRC draws nothing. -/
theorem mrcAfterMcrReadsTheValueWritten : Obligations.MrcAfterMcrReadsTheValueWritten := by
  intro s s1 u i j rt ru v hw hi ha hv he hcfg hstored hunknown hj hau
  obtain ⟨v', hv', he'⟩ := exec_mcr_allow hi ha
  obtain rfl : v' = v := Option.some.inj (hv'.symm.trans hv)
  obtain rfl : (s.writeHsctlr v').pastA32 = s1 := Host.Outcome.next.inj (he'.symm.trans he)
  have hu0 : u.hsctlr.unknown = 0#32 := hunknown.trans (write_unknown_eq_zero hw v')
  have hread : u.readHsctlr = readMasked s.cfg (writeMasked s.cfg s.hsctlr.stored v') := by
    rw [readHsctlr_known hu0, hcfg, hstored]
    rfl
  have hj' : exec j u = .next (u.writeReg ru u.readHsctlr).pastA32 := exec_mrc_allow hj hau
  exact ⟨_, hj', hread ▸ exec_mrc_readReg hj hau hj'⟩

/-- Settles O58: of the effects that an instruction can have, only that of an allowed MCR writes `S`. -/
theorem onlyAllowedMcrChangesHsctlr : Obligations.OnlyAllowedMcrChangesHsctlr := by
  refine ⟨fun s t i h => ?_, fun s t admits o h => outsideInstr_sameS h⟩
  cases exec_cases h with
  | mcrA32 ha hv => exact .inr ⟨_, _, .inl rfl, ha, hv, rfl⟩
  | mcrT32 ha hv => exact .inr ⟨_, _, .inr rfl, ha, hv, rfl⟩
  | hypTrap | mrcA32 | mrcT32 | it | itSkipped => exact .inl ⟨rfl, rfl⟩
  | setendA32 | setendT16 => exact .inl (setEndian_sameS s _ _)
  | barrierA32 b holds | barrierT32 b holds => exact .inl (barrier_sameS s b holds)
  | outside o => exact .inl (applyOutside_stored s o)

/-- Settles O16: level by level; at EL1 the two trap conditions exclude each other by which state EL2 uses. -/
theorem accessCheckVerdicts : Obligations.AccessCheckVerdicts := by
  intro s
  refine ⟨accessCheck_absent, fun hf => ⟨accessCheck_el0 hf, fun hl => ⟨fun h64 => ?aarch64, fun h32 => ?hyp,
    fun h64 h32 => ?neither⟩, accessCheck_el2 hf, fun hl => ⟨fun hn => ?secure, fun hn => ?nonSecure⟩⟩⟩
  case aarch64 => rw [accessCheck_el1 hf hl, if_pos h64]
  case hyp =>
    have ⟨_, h, _⟩ := h32
    rw [accessCheck_el1 hf hl, if_neg (by simp [h]), if_pos h32]
  case neither => rw [accessCheck_el1 hf hl, if_neg h64, if_neg h32]
  all_goals
    rw [accessCheck_el3 hf hl, hn]
    rfl
end

section
/-! PROOFS of the family 41_controlled_instructions: the instructions that SED, ITD and CP15BEN gate. What SETEND, IT, a
CP15 barrier and a class instruction do where R103 does not apply is one equation each, for A32 and T32 together: the gate,
then the effect, then `State.past`. The statements are these equations with the gate open or closed, and what the effect
leaves unchanged. -/

namespace Sys2Proof.Machine

/-! ## The gates at EL2 and elsewhere (R100 to R109) -/

section
variable {s : State}

theorem setendDisabled_of_atHyp (hs : s.atHyp = true) : s.setendDisabled = s.eff 1 .sed := if_pos hs

theorem setendDisabled_eq_false (hel2 : s.atHyp = true → s.eff 1 .sed = false)
    (helse : s.atHyp = false → s.sctlrSED = false) : s.setendDisabled = false := by
  cases hs : s.atHyp <;> simp [State.setendDisabled, hs, hel2, helse]

theorem barriersEnabled_of_atHyp (hs : s.atHyp = true) : s.barriersEnabled = s.eff 1 .cp15ben := if_pos hs

theorem barriersEnabled_eq_true (hel2 : s.atHyp = true → s.eff 1 .cp15ben = true)
    (helse : s.atHyp = false → s.sctlrCP15BEN = true) : s.barriersEnabled = true := by
  cases hs : s.atHyp <;> simp [State.barriersEnabled, hs, hel2, helse]

theorem itDisabled_of_atHyp (hs : s.atHyp = true) (k : Nat) : s.itDisabled k = s.eff k .itd := if_pos hs

theorem itDisabled_eq_false {k : Nat}
    (h : (s.atHyp = true ∧ s.eff k .itd = false) ∨ (s.atHyp = false ∧ s.sctlrITD = false)) :
    s.itDisabled k = false := by
  rcases h with ⟨hs, h⟩ | ⟨hs, h⟩ <;> simp [State.itDisabled, hs, h]

/-- Without mixed-endian support at EL2 the bit of SED is RES1 (R100). -/
theorem eff_sed_of_not_mixedEnd (hm : s.cfg.mixedEndEL2 = false) (k : Nat) : s.eff k .sed = true := by
  have hk : bitKind s.cfg Field.sed.bit = .res1 := by simp [bitKind, Field.bit, hm]
  rw [State.eff, eff_of_not_control (by simp [hk]), hk]
  rfl

end

/-! ## Conditions (log 16) -/

section
variable {s : State}

theorem itCondHolds_of_always (h : s.inItBlock = false ∨ s.itState.extractLsb' 4 4 = always) :
    s.itCondHolds = true := by
  rcases h with h | h <;> simp [State.itCondHolds, State.condHolds, h]

/-- Only in an IT block with a condition other than "always" may the condition fail. -/
theorem inItBlock_of_not_itCondHolds (h : s.itCondHolds = false) :
    s.inItBlock = true ∧ s.itState.extractLsb' 4 4 ≠ always := by
  by_contra hn
  have : s.itCondHolds = true := itCondHolds_of_always (by rw [← Bool.not_eq_true]; tauto)
  simp [this] at h

end

/-- Whether an instruction passes its condition: its own in A32, where SETEND has none, and that of its IT block in T32. -/
def State.passes (s : State) : Instr → Bool
  | .mrcA32 cond _ | .mcrA32 cond _ | .cp15dmbA32 cond _ | .cp15dsbA32 cond _ | .cp15isbA32 cond _ => s.condHolds cond
  | .setendA32 _ => true
  | _ => s.itCondHolds

/-! ## Moving past an instruction of either set -/

/-- Past an instruction that completes with no effect on the pc, the IT state or its mark. -/
def State.past (s : State) (i : Instr) : State :=
  match i.iset with
  | .a32 => s.pastA32
  | .t32 => s.pastT32 (lengthOf i)

theorem past_of_a32 (s : State) {i : Instr} (hi : i.iset = .a32) : s.past i = s.pastA32 := by
  simp only [State.past, hi]

theorem past_of_t32 (s : State) {i : Instr} (hi : i.iset = .t32) : s.past i = s.pastT32 (lengthOf i) := by
  simp only [State.past, hi]

theorem lengthOf_of_a32 {i : Instr} (hi : i.iset = .a32) : lengthOf i = 4#32 := by
  cases i with
  | mrcA32 | mcrA32 | setendA32 | cp15dmbA32 | cp15dsbA32 | cp15isbA32 => rfl
  | mrcT32 | mcrT32 | setendT16 | itT16 | itdK1 | itdK2 | itdK3 | itdK4 | itdK5 | itdK6
  | cp15dmbT32 | cp15dsbT32 | cp15isbT32 => cases hi

/-- What an instruction `i` that completes leaves unchanged of `s` beside HSCTLR and PSTATE.E, and where the pc and the IT
state of `t` are. -/
structure MovedPast (i : Instr) (s t : State) : Prop where
  regs : SameRegs s t
  it : ItMovesOn i s t
  afterIt : t.afterIt = false
  context : SameContext s t
  memory : SameMemory s t
  pc : t.pc = s.pc + lengthOf i

/-- An effect `u` on `s` that writes HSCTLR and PSTATE.E at most, then the move past the instruction. -/
theorem MovedPast.of_past {s u : State} (i : Instr) (hregs : u.regs = s.regs) (hit : u.itState = s.itState)
    (hctx : SameContext s u) (hmem : u.mem = s.mem) (hpc : u.pc = s.pc) : MovedPast i s (u.past i) := by
  cases hi : i.iset with
  | a32 =>
    rw [past_of_a32 u hi]
    exact ⟨readReg_of_regs hregs, itMovesOn_a32 hi hit, rfl, { hctx with }, readByte_of_mem hmem,
      by rw [lengthOf_of_a32 hi, pastA32_pc, hpc]⟩
  | t32 =>
    rw [past_of_t32 u hi]
    exact ⟨readReg_of_regs hregs, itMovesOn_t32 hi (congrArg itAdvance hit), rfl, { hctx with }, readByte_of_mem hmem,
      by rw [pastT32_pc, hpc]⟩

@[simp] theorem past_hsctlr (s : State) (i : Instr) : (s.past i).hsctlr = s.hsctlr := by
  unfold State.past; split <;> rfl

@[simp] theorem past_pstateE (s : State) (i : Instr) : (s.past i).pstateE = s.pstateE := by
  unfold State.past; split <;> rfl

theorem setEndian_movedPast (s : State) (holds big : Bool) (i : Instr) :
    MovedPast i s ((s.setEndian holds big).past i) :=
  .of_past i (by simp) (by simp) (by constructor <;> simp) (by simp) (by simp)

theorem barrier_movedPast (s : State) (b : Barrier) (holds : Bool) (i : Instr) :
    MovedPast i s ((s.barrier b holds).past i) :=
  .of_past i (by simp) (by simp) (by constructor <;> simp) (by simp) (by simp)

/-! ## SETEND and IT where R103 does not apply -/

section
variable {s : State}

theorem exec_setend {i : Instr} {big : Bool} (hi : IsSetend i big) (hn : NotUnderIt s i) :
    exec i s = if s.setendDisabled then .fault .undefined else .next ((s.setEndian (s.passes i) big).past i) := by
  rcases hi with rfl | rfl
  · rfl
  · simp only [exec, execSetendT16, afterItFault_notUnderIt hn rfl]
    rfl

/-- An IT with mask 1000 is allowed whatever ITD is (R101). -/
theorem exec_it {firstcond mask : BitVec 4} (hn : NotUnderIt s (.itT16 firstcond mask)) :
    exec (.itT16 firstcond mask) s =
      if mask ≠ 0b1000#4 ∧ s.itDisabled 1 = true then .fault .undefined
      else if s.itCondHolds then .next (s.openItBlock firstcond mask) else .next (s.pastT32 2#32) := by
  simp only [exec, execItT16, afterItFault_notUnderIt hn rfl, Bool.and_eq_true, bne_iff_ne]

theorem exec_it_allowed {firstcond mask : BitVec 4} (hn : NotUnderIt s (.itT16 firstcond mask))
    (h : mask = 0b1000#4 ∨ s.itDisabled 1 = false) : exec (.itT16 firstcond mask) s =
      .next (if s.itCondHolds then s.openItBlock firstcond mask else s.pastT32 2#32) := by
  have hopen : ¬(mask ≠ 0b1000#4 ∧ s.itDisabled 1 = true) := fun ⟨hm, hd⟩ => h.elim hm (by simp [hd])
  rw [exec_it hn, if_neg hopen, apply_ite Host.Outcome.next]

/-- The condition and the mask of the block that an IT opens (GK15, log 15). -/
theorem openItBlock_opens (s : State) (firstcond mask : BitVec 4) :
    (s.openItBlock firstcond mask).itState.extractLsb' 4 4 = firstcond ∧
      (s.openItBlock firstcond mask).itState.extractLsb' 0 4 = mask := by
  rw [openItBlock_itState]
  exact ⟨BitVec.extractLsb'_append_eq_left, BitVec.extractLsb'_append_eq_right⟩

end

/-! ## The CP15 barriers where R103 does not apply -/

/-- The row of the table that a barrier has in both sets (R86). -/
def Barrier.row : Barrier → SysMoveRow
  | .dmb => .dmb
  | .dsb => .dsb
  | .isb => .isb

/-- `i` is the CP15 barrier `b`, in A32 or T32. -/
def IsBarrier (b : Barrier) (i : Instr) : Prop := (∃ cond rt, i = b.row.a32 cond rt) ∨ ∃ rt, i = b.row.t32 rt

theorem IsDmbOrDsb.isBarrier {i : Instr} (hi : IsDmbOrDsb i) : ∃ b ≠ Barrier.isb, IsBarrier b i := by
  rcases hi with h | h | h | h
  · exact ⟨.dmb, nofun, .inl h⟩
  · exact ⟨.dmb, nofun, .inr h⟩
  · exact ⟨.dsb, nofun, .inl h⟩
  · exact ⟨.dsb, nofun, .inr h⟩

theorem IsIsb.isBarrier {i : Instr} (hi : IsIsb i) : IsBarrier .isb i := hi

theorem IsBarrier.lengthOf_eq {b : Barrier} {i : Instr} (hi : IsBarrier b i) : lengthOf i = 4#32 := by
  rcases hi with ⟨cond, rt, rfl⟩ | ⟨rt, rfl⟩
  · exact lengthOf_of_a32 (b.row.a32_iset cond rt)
  · rw [lengthOf, b.row.encode_t32]
    rfl

theorem exec_barrier {s : State} {b : Barrier} {i : Instr} (hi : IsBarrier b i) (hn : NotUnderIt s i) :
    exec i s =
      if s.barriersEnabled then .next ((s.barrier b (s.passes i)).past i) else .fault .undefined := by
  rcases hi with ⟨cond, rt, rfl⟩ | ⟨rt, rfl⟩
  · cases b <;> rfl
  · have hnone (hw1 : Half) : s.afterItFault hw1 = none := afterItFault_notUnderIt hn (b.row.t32_iset rt) hw1
    have he : exec (b.row.t32 rt) s = s.barrierT32 b (sysMoveHw1 false b.row.selector rt) := by cases b <;> rfl
    rw [he, State.barrierT32, hnone]
    cases b <;> rfl

/-! ## The instructions of the six classes where R103 does not apply -/

/-- The accesses that the instructions of a class may make (log 18): any in K1 and K2, loads of a word in K4, none in K3,
K5 and K6. -/
def classAdmits : Instr → Access → Bool
  | .itdK3 _ | .itdK5 _ | .itdK6 _ => fun _ => false
  | .itdK4 _ => isLiteralLoad
  | _ => fun _ => true

theorem exec_classInstr {s : State} {i : Instr} (hi : IsClassInstr i) (hn : NotUnderIt s i) :
    exec i s = s.outsideInstr (classAdmits i) (Config.outsideScope s.draws) := by
  rcases hi with ⟨hw1, hw2, rfl⟩ | ⟨hw1, rfl⟩ | ⟨hw1, rfl⟩ | ⟨hw1, rfl⟩ | ⟨hw1, rfl⟩ | ⟨hw1, rfl⟩ <;>
    exact classInstr_notUnderIt hn rfl hw1 _

theorem classAdmits_of_accessesNoMemory {i : Instr} (hi : AccessesNoMemory i) (a : Access) :
    classAdmits i a = false := by
  rcases hi with ⟨hw1, rfl⟩ | ⟨hw1, rfl⟩ | ⟨hw1, rfl⟩ <;> rfl

/-- With `Eff(A)` 0 no check of R67, R68 or R72 stops a plain access. -/
theorem accessFault_of_plain {s : State} {k : Nat} {a : Access} (hc : a.cls = .plain) (ha : s.eff k .a = false) :
    s.accessFault k a = none := by
  rw [accessFault_eq_none_iff]
  simp [State.alignmentFails, State.multipleTraps, alwaysChecked, hc, ha]

/-- Where no check can stop an access of a class instruction: outside Hyp mode, where it makes none, and in K4 with the
check of R67 off. -/
theorem accessFault_of_classAdmits {s : State} {i : Instr}
    (h : s.atHyp = false ∨ AccessesNoMemory i ∨ ∃ hw1, i = .itdK4 hw1 ∧ ∀ k, s.eff k .a = false) (k : Nat) (a : Access)
    (ha : classAdmits i a = true) : s.accessFault k a = none := by
  rcases h with hs | hi | ⟨hw1, rfl, hA⟩
  · exact accessFault_notHyp hs k a
  · simp [classAdmits_of_accessesNoMemory hi] at ha
  · exact accessFault_of_plain (isLiteralLoad_plain ha) (hA k)

/-- K3 to K6 make no store (log 18). -/
theorem storesTo_of_classAdmits {i : Instr} (h : AccessesNoMemory i ∨ ∃ hw1, i = .itdK4 hw1) {a : Access}
    (ha : classAdmits i a = true) (x : Word) : storesTo a x = false := by
  rcases h with hi | ⟨hw1, rfl⟩
  · simp [classAdmits_of_accessesNoMemory hi] at ha
  · exact isLiteralLoad_storesTo ha x

/-! ## Directly after an IT (R103 to R105) -/

theorem firstHalf_rowT32 (r : SysMoveRow) (rt : BitVec 4) : firstHalfOf (r.t32 rt) = sysMoveHw1 r.read r.selector rt :=
  firstHalf_pair (r.encode_t32 rt)

theorem firstHalf_itdK1 (hw1 : Half) (hw2 : Option Half) : firstHalfOf (.itdK1 hw1 hw2) = hw1 := by
  cases hw2 with
  | none => exact Laws.EncodeLength.firstHalf_single rfl
  | some hw2 =>
    rw [firstHalf_pair (i := .itdK1 hw1 (some hw2)) (bytesOfPair_append hw1 hw2).symm,
      BitVec.extractLsb'_append_eq_left]

/-- R104 for MRC, MCR and the barriers: the fault of R103 is asked for before anything else. -/
theorem exec_rowT32_of_afterItFault {s : State} {f : Fault} (r : SysMoveRow) {rt : BitVec 4}
    (hf : s.afterItFault (firstHalfOf (r.t32 rt)) = some f) : exec (r.t32 rt) s = .fault f := by
  rw [firstHalf_rowT32] at hf
  cases r <;> simp only [SysMoveRow.read, SysMoveRow.selector] at hf <;>
    simp only [SysMoveRow.t32, exec, execMrcT32, execMcrT32, execCp15dmbT32, execCp15dsbT32, execCp15isbT32,
      State.barrierT32, hf]

/-- R104 for the six classes. -/
theorem classInstr_of_afterItFault {s : State} {f : Fault} {hw1 : Half} (hf : s.afterItFault hw1 = some f)
    (admits : Access → Bool) : s.classInstr hw1 admits = .fault f := by
  simp only [State.classInstr, hf]

/-- R104 for every T32 instruction of the table, by the first halfword of its encoding. -/
theorem exec_of_afterItFault {s : State} {i : Instr} {f : Fault} (hi : i.iset = .t32)
    (hf : s.afterItFault (firstHalfOf i) = some f) : exec i s = .fault f := by
  cases i with
  | mrcA32 | mcrA32 | setendA32 | cp15dmbA32 | cp15dsbA32 | cp15isbA32 => cases hi
  | mrcT32 => exact exec_rowT32_of_afterItFault .mrc hf
  | mcrT32 => exact exec_rowT32_of_afterItFault .mcr hf
  | cp15dmbT32 => exact exec_rowT32_of_afterItFault .dmb hf
  | cp15dsbT32 => exact exec_rowT32_of_afterItFault .dsb hf
  | cp15isbT32 => exact exec_rowT32_of_afterItFault .isb hf
  | setendT16 big =>
    rw [Laws.EncodeLength.firstHalf_single (h := setendHalf big) rfl] at hf
    simp only [exec, execSetendT16, hf]
  | itT16 firstcond mask =>
    rw [Laws.EncodeLength.firstHalf_single (h := itHalf firstcond mask) rfl] at hf
    simp only [exec, execItT16, hf]
  | itdK1 hw1 hw2 =>
    rw [firstHalf_itdK1] at hf
    exact classInstr_of_afterItFault hf _
  | itdK2 hw1 | itdK3 hw1 | itdK4 hw1 | itdK5 hw1 | itdK6 hw1 =>
    rw [Laws.EncodeLength.firstHalf_single (h := hw1) rfl] at hf
    exact classInstr_of_afterItFault hf _

end Sys2Proof.Machine

open Sys2Proof Sys2Proof.Machine

/-- Settles O30: with the gate open SETEND is its effect and the move past it. -/
theorem setendCompletes : Obligations.SetendCompletes := by
  intro s i big hi hn hel2 helse
  have he : exec i s = .next ((s.setEndian (s.passes i) big).past i) := by
    rw [exec_setend hi hn, setendDisabled_eq_false hel2 helse]
    rfl
  obtain ⟨hregs, hit, hafter, hctx, hmem, hpc⟩ := setEndian_movedPast s (s.passes i) big i
  refine ⟨_, he, ?_, hregs, by simp, hit, hafter, hctx, hmem, hpc⟩
  rw [past_pstateE, setEndian_pstateE]
  cases hp : s.passes i with
  | true => exact .inl rfl
  | false =>
    rcases hi with rfl | rfl
    · cases hp
    · exact .inr ⟨rfl, rfl, inItBlock_of_not_itCondHolds hp⟩

/-- Settles O32: the IT opens its block or, its condition failing, is skipped; the IT state moves on by cases over its 256
values. -/
theorem itOpensItsBlock : Obligations.ItOpensItsBlock := by
  refine ⟨fun s firstcond mask hn hgate => ?_, by decide⟩
  have hopen : mask = 0b1000#4 ∨ s.itDisabled 1 = false := hgate.imp_right itDisabled_eq_false
  refine ⟨_, exec_it_allowed hn hopen, ?_⟩
  cases hc : s.itCondHolds with
  | true =>
    obtain ⟨hcond, hmask⟩ := openItBlock_opens s firstcond mask
    exact ⟨⟨fun _ => ⟨hcond, hmask, rfl⟩, .inl ⟨hcond, hmask, rfl⟩⟩, fun _ => rfl, rfl, rfl, by constructor <;> rfl,
      fun _ => rfl, rfl⟩
  | false =>
    obtain ⟨hb, hne⟩ := inItBlock_of_not_itCondHolds hc
    refine ⟨⟨fun h => ?_, .inr ⟨hb, rfl, rfl⟩⟩, fun _ => rfl, rfl, rfl, by constructor <;> rfl, fun _ => rfl, rfl⟩
    rcases h with h | h
    · simp [hb] at h
    · exact absurd h hne

/-- Settles O33: R103's fault comes first, and its two readings are those of R105. -/
theorem classInstructionAfterItIsUndefined : Obligations.ClassInstructionAfterItIsUndefined := by
  intro s i _ hi hcls hafter hs hitd
  rw [exec_of_afterItFault hi (afterItFault_some hafter hcls (itDisabled_of_atHyp hs 0 ▸ hitd))]
  cases Config.freeItWidth s.draws with
  | it16 => exact .inl rfl
  | it32half => exact .inr rfl

/-- Settles O35: no access is stopped, so the instruction has its free effect, which stores only inside its accesses. -/
theorem classInstructionCompletes : Obligations.ClassInstructionCompletes := by
  intro s i hi hn hfree
  have he := exec_classInstr hi hn
  rw [outsideInstr_completes (accessFault_of_classAdmits hfree)] at he
  obtain ⟨hstored, hunknown⟩ := applyOutside_stored s (storesWithin _ (Config.outsideScope s.draws).effect)
  exact ⟨_, he, hstored, hunknown, applyOutside_cfg s _, applyOutside_turns s _, applyOutside_hypTrapEc s _,
    fun h => applyOutside_ssbs h _, applyOutside_afterIt s _, fun h x => readByte_applyOutside_storesWithin s
      (fun a ha => storesTo_of_classAdmits h (List.mem_filter.1 ha).2 x) _⟩

/-- Settles O37: a barrier other than ISB has no effect but the move past it. -/
theorem dmbAndDsbOnlyAdvance : Obligations.DmbAndDsbOnlyAdvance := by
  intro s i hi hn hel2 helse
  obtain ⟨b, hb, hi⟩ := hi.isBarrier
  have he := exec_barrier hi hn
  rw [barriersEnabled_eq_true hel2 helse] at he
  obtain ⟨hregs, hit, hafter, hctx, hmem, hpc⟩ := barrier_movedPast s b (s.passes i) i
  exact ⟨_, he, by simp [hb], hregs, by simp, hit, hafter, hctx, hmem, hi.lengthOf_eq ▸ hpc⟩

/-- Settles O38: an ISB that passes its condition synchronises. -/
theorem isbSynchronises : Obligations.IsbSynchronises := by
  intro s i hi hn hel2 helse
  have hi : IsBarrier .isb i := hi.isBarrier
  have he := exec_barrier hi hn
  rw [barriersEnabled_eq_true hel2 helse] at he
  obtain ⟨hregs, hit, hafter, hctx, hmem, hpc⟩ := barrier_movedPast s .isb (s.passes i) i
  refine ⟨_, he, ?_, fun halways => ?_, hregs, by simp, hit, hafter, hctx, hmem, hi.lengthOf_eq ▸ hpc⟩
  · cases s.passes i
    · exact .inr (past_hsctlr _ i)
    · exact .inl (past_hsctlr _ i)
  · have hp : s.passes i = true := by
      obtain ⟨rt, rfl | ⟨rfl, h⟩⟩ := halways
      · rfl
      · exact itCondHolds_of_always h
    rw [hp, past_hsctlr]
    rfl

/-- Settles O24: the write of bit 7 over a stored 0 sets ITD. -/
theorem settingItdInItBlockIsRefused : Obligations.SettingItdInItBlockIsRefused := by
  intro s rt v hn hb hs hitd h13 hv hv7 hs7
  have h15 : rt ≠ 15#4 := by
    rintro rfl
    simp [readReg_15] at hv
  have hsets : s.setsItd v = true := by
    rw [State.setsItd, hs, hitd, Field.bit, hv7, hs7]
    rfl
  simp [exec, execMcrT32, afterItFault_notUnderIt hn rfl, admittedT32, h13, h15, hv, hb, hsets]

/-- Settles O29: at EL2 the gate is SED, which is fixed to 1 without mixed-endian support. -/
theorem setendIsGatedBySed : Obligations.SetendIsGatedBySed := by
  intro s i big hi hn hs
  rw [exec_setend hi hn, setendDisabled_of_atHyp hs]
  exact ⟨fun h => by rw [h]; rfl, fun h => by rw [h]; exact ⟨_, rfl⟩,
    fun hm => by rw [eff_sed_of_not_mixedEnd hm]; rfl⟩

/-- Settles O31: at EL2 the gate is ITD, for a mask other than 1000. -/
theorem itIsGatedByItd : Obligations.ItIsGatedByItd := by
  intro s firstcond mask hn hs
  refine ⟨fun h hm => ?_, fun h => ⟨_, exec_it_allowed hn ?_⟩⟩
  · rw [exec_it hn, if_pos ⟨hm, itDisabled_of_atHyp hs 1 ▸ h⟩]
  · rw [itDisabled_of_atHyp hs]
    exact h.symm

/-- Settles O36: at EL2 the gate is CP15BEN. -/
theorem barriersAreGatedByCp15ben : Obligations.BarriersAreGatedByCp15ben := by
  intro s i hi hn hs
  obtain ⟨b, hi⟩ : ∃ b, IsBarrier b i := by
    rcases hi with hi | hi
    · obtain ⟨b, -, hi⟩ := hi.isBarrier
      exact ⟨b, hi⟩
    · exact ⟨.isb, hi.isBarrier⟩
  rw [exec_barrier hi hn, barriersEnabled_of_atHyp hs]
  exact ⟨fun h => by rw [h]; rfl, fun h => by rw [h]; exact ⟨_, rfl⟩⟩

/-- Settles O52: the fetch answers bytes of no row, which run outside the spec. -/
theorem wordsOutsideTheTableRun : Obligations.WordsOutsideTheTableRun := by
  intro s n bs hl ht s1 hn hb hp hno
  have hf : s1.fetch = .outside := by
    rw [fetch_of_readBytes hn hb hp, State.decodeFetched]
    split
    · next hd => exact absurd hd (hno _ _)
    · rfl
  rw [step_instruction hl ht, State.runInstruction, hf]
  rfl
end

section
/-! PROOFS of the family 60_exceptions: taking an exception to Hyp mode, and what the levels that R130 bars see of HSCTLR.
The verdict at those levels is never Allow, so nothing behind the access check runs there; what such an access shows of
HSCTLR is what an entry to Hyp mode reads of it, the three fields of R124 to R126. -/

namespace Sys2Proof.Machine

section
variable {s : State}

/-! ## Levels without access to HSCTLR (R129, R130) -/

theorem accessCheck_el0_undefined (hl : s.el = .el0) : s.accessCheck = .undefined := by
  cases hf : s.cfg.featAA32EL2 with
  | false => exact accessCheck_absent hf
  | true => exact accessCheck_el0 hf hl

theorem accessCheck_ne_allow (hl : s.el = .el0 ∨ s.el = .el1 ∨ (s.el = .el3 ∧ s.scrNS = false)) :
    s.accessCheck ≠ .allow := by
  cases hf : s.cfg.featAA32EL2 with
  | false => rw [accessCheck_absent hf]; nofun
  | true =>
    rcases hl with hl | hl | ⟨hl, hn⟩
    · rw [accessCheck_el0 hf hl]; nofun
    · rw [accessCheck_el1 hf hl]
      split
      · nofun
      · split <;> nofun
    · rw [accessCheck_el3 hf hl, hn]; nofun

theorem exec_sameS {i : Instr} {t : State} (h : exec i s = .next t) (ha : s.accessCheck ≠ .allow) : SameS s t := by
  rcases onlyAllowedMcrChangesHsctlr.1 s t i h with hs | ⟨rt, v, -, hallow, -⟩
  · exact hs
  · exact absurd hallow ha

theorem runInstruction_sameS {t : State} (h : s.runInstruction = .next t) (ha : s.accessCheck ≠ .allow) :
    SameS s t := by
  rcases runInstruction_next h with ⟨i, -, hi⟩ | ⟨-, o, rfl⟩
  · exact exec_sameS hi ha
  · exact applyOutside_stored s o

/-! ## Without FEAT_AA32EL2 (R3, log 39) -/

theorem atHyp_absent (hf : s.cfg.featAA32EL2 = false) : s.atHyp = false := by
  simp [State.atHyp, hf]

section
variable (hs : s.atHyp = false)
include hs

theorem setendDisabled_notHyp : s.setendDisabled = s.sctlrSED := by simp [State.setendDisabled, hs]

theorem barriersEnabled_notHyp : s.barriersEnabled = s.sctlrCP15BEN := by simp [State.barriersEnabled, hs]

theorem itDisabled_notHyp (k : Nat) : s.itDisabled k = s.sctlrITD := by simp [State.itDisabled, hs]

theorem permitFetch_notHyp (k : Nat) (a : Word) : s.permitFetch k a = true := by simp [State.permitFetch, hs]

theorem multipleOrder_notHyp (k : Nat) : s.multipleOrder k = .notGoverned := by simp [State.multipleOrder, hs]

end

/-! ## Entry to Hyp mode (R121, R124 to R126) -/

theorem hasHypMode_iff : s.hasHypMode = true ↔ s.cfg.featAA32EL2 = true ∧ s.el2UsingAArch32 = true := by
  rw [State.hasHypMode, Bool.and_eq_true]

theorem hasHypMode_eq_false_iff :
    s.hasHypMode = false ↔ s.cfg.featAA32EL2 = false ∨ s.el2UsingAArch32 = false := by
  rw [State.hasHypMode, Bool.and_eq_false_iff]

theorem runEvent_exceptionToHyp (h : s.hasHypMode = true) :
    s.runEvent .exceptionToHyp = .next s.takeExceptionToHyp := by
  simp only [State.runEvent, h, if_true]

theorem runEvent_exceptionToHyp_refused (h : s.hasHypMode = false) :
    s.runEvent .exceptionToHyp = .refused .noHypMode := by
  simp [State.runEvent, h]

theorem entersHyp_iff {o : Outside} (h : s.hasHypMode = true) :
    s.entersHyp o = true ↔ o.exceptionToHyp = true ∨ (o.el = .el2 ∧ (s.el = .el0 ∨ s.el = .el1)) := by
  simp [State.entersHyp, h]

theorem sameInputs_takeExceptionToHyp (s : State) : SameInputs s s.takeExceptionToHyp := by
  constructor <;> rfl

/-- Which stores an effect is cut down to (log 18) does not decide how it enters Hyp mode. -/
theorem applyOutside_storesWithin_enters {o : Outside} (h : s.entersHyp o = true) (l : List Access) :
    EntersHypMode s (outsideHsctlr o s.hsctlr) (s.applyOutside (storesWithin l o)) :=
  applyOutside_enters (o := storesWithin l o) h

/-- A Hyp Trap enters Hyp mode as every exception taken there does. -/
theorem takeHypTrap_enters (s : State) (ec : Nat) : EntersHypMode s s.hsctlr (s.takeHypTrap ec) :=
  { takeExceptionToHyp_enters s with }

/-- Of HSCTLR a Hyp Trap reads TE, EE and DSSBS only. -/
theorem takeHypTrap_of_eff_eq {h : Hsctlr}
    (he : ∀ f ∈ [Field.te, .ee, .dssbs], h.eff s.cfg (s.draw 3) f = s.hsctlr.eff s.cfg (s.draw 3) f) (ec : Nat) :
    State.takeHypTrap { s with hsctlr := h } ec = { s.takeHypTrap ec with hsctlr := h.synchronise } := by
  have eff_eq (f : Field) (hf : f ∈ [Field.te, .ee, .dssbs]) :
      State.eff { s with hsctlr := h } 3 f = s.eff 3 f := he f hf
  simp only [State.takeHypTrap, State.takeExceptionToHyp, State.onEntryToHypMode, eff_eq .te (by decide),
    eff_eq .ee (by decide), eff_eq .dssbs (by decide)]

end

end Sys2Proof.Machine

open Sys2Proof Sys2Proof.Machine

/-- Settles O59: the verdict of the access check is not Allow at these levels, and only an allowed MCR writes `S`. -/
theorem lowerLevelsCannotWriteHsctlr : Obligations.LowerLevelsCannotWriteHsctlr := by
  intro s t ht h hl
  obtain ⟨-, ⟨e, rest, hturn, -⟩ | ⟨rest, -, hi⟩⟩ := step_cases h
  · rcases ht with ht | ⟨rest', ht⟩ <;> cases ht.symm.trans hturn
  · have hsame : SameS { s.tick with turns := rest } t := runInstruction_sameS hi (accessCheck_ne_allow hl)
    exact hsame

/-- Settles O60: the access check does not read HSCTLR, and of its verdicts other than Allow only the Hyp Trap does. -/
theorem lowerLevelsCannotReadHsctlr : Obligations.LowerLevelsCannotReadHsctlr := by
  intro s i rt h hi hl heff
  have hi' : AdmittedMrc { s with hsctlr := h } i rt := hi
  rw [exec_mrc hi, exec_mrc hi']
  have hcheck : State.accessCheck { s with hsctlr := h } = s.accessCheck := rfl
  cases hv : s.accessCheck with
  | undefined =>
    rw [withAccess_undefined hv, withAccess_undefined (hcheck.trans hv)]
    exact ⟨fun _ hr => hr, fun _ ht => by cases ht⟩
  | trapToEL2AArch64 =>
    rw [withAccess_trapToEL2AArch64 hv, withAccess_trapToEL2AArch64 (hcheck.trans hv)]
    exact ⟨fun _ hr => hr, fun _ ht => by cases ht⟩
  | trapToHypAArch32 =>
    rw [withAccess_trapToHypAArch32 hv, withAccess_trapToHypAArch32 (hcheck.trans hv), takeHypTrap_of_eff_eq heff]
    exact ⟨nofun, fun t ht => ⟨h.synchronise, by cases ht; rfl⟩⟩
  | allow => exact absurd hv (accessCheck_ne_allow hl)

/-- Settles O18: the PE is never in Hyp mode, and what is asked of HSCTLR at every level asks for FEAT_AA32EL2 first. -/
theorem absentRegisterGovernsNothing : Obligations.AbsentRegisterGovernsNothing := by
  intro s hf
  have hs : s.atHyp = false := atHyp_absent hf
  exact ⟨setendDisabled_notHyp hs, barriersEnabled_notHyp hs, itDisabled_notHyp hs, permitFetch_notHyp hs,
    accessFault_notHyp hs, fun k => ⟨multipleOrder_notHyp hs k, by simp [State.fetchTypeDisabled, hf]⟩,
    fun k access => by simp [State.cacheability, hf], fun k walk => by simp [State.walkBigEndian, hf],
    runEvent_exceptionToHyp_refused (hasHypMode_eq_false_iff.2 (.inl hf))⟩

/-- Settles O25: the verdict is the Hyp Trap, an exception taken to Hyp mode. -/
theorem hypTrapEntersHypMode : Obligations.HypTrapEntersHypMode := by
  intro s i rt hi hl hf hen h32 ht1
  have hv : s.accessCheck = .trapToHypAArch32 := by simp [accessCheck_el1 hf hl, hen, h32, ht1]
  obtain ⟨go, he⟩ := exec_admitted hi
  obtain ⟨hel, hiset, hE, hssbs, hnoSsbs⟩ := takeHypTrap_enters s trapEc
  exact ⟨s.takeHypTrap trapEc, he.trans (withAccess_trapToHypAArch32 hv go), rfl, hel, hiset, hE, hssbs, hnoSsbs⟩

/-- Settles O26: the event, an effect of the machine around and an instruction outside the spec enter Hyp mode by the same
operation, each with HSCTLR as it finds it. -/
theorem entryToHypModeSetsProcessState : Obligations.EntryToHypModeSetsProcessState := by
  refine fun s => ⟨fun hf h32 => ?_, fun h => runEvent_exceptionToHyp_refused (hasHypMode_eq_false_iff.2 h)⟩
  have hhyp : s.hasHypMode = true := hasHypMode_iff.2 ⟨hf, h32⟩
  refine ⟨⟨_, runEvent_exceptionToHyp hhyp, takeExceptionToHyp_enters s, ⟨rfl, rfl⟩, rfl,
    sameInputs_takeExceptionToHyp s, fun _ => rfl⟩, fun o ho => ?_⟩
  have henters : s.entersHyp o = true := (entersHyp_iff hhyp).2 ho
  refine ⟨⟨_, rfl, applyOutside_enters henters, applyOutside_stored s o⟩, fun admits accesses t h => ?_⟩
  obtain ⟨-, rfl⟩ := outsideInstr_next h
  exact ⟨applyOutside_storesWithin_enters henters _, (outsideInstr_sameS h).1⟩

/-- Settles O27: the verdict is the trap to an AArch64 EL2. -/
theorem aarch64TrapEndsTheStep : Obligations.AArch64TrapEndsTheStep := by
  intro s i rt hi hl hf h64 hen h32 ht1
  have hv : s.accessCheck = .trapToEL2AArch64 := by simp [accessCheck_el1 hf hl, hen, h64, h32, ht1]
  obtain ⟨go, he⟩ := exec_admitted hi
  exact he.trans (withAccess_trapToEL2AArch64 hv go)

/-- Settles O28: the trap bits are not read at EL0. -/
theorem el0IsNeverTrapped : Obligations.EL0IsNeverTrapped := by
  intro s i rt hi hl
  obtain ⟨go, he⟩ := exec_admitted hi
  exact he.trans (withAccess_undefined (accessCheck_el0_undefined hl) go)
end

section
/-! PROOFS of the family 70_reset_and_hazards: the hazards of R144 and R145 bit by bit. A control has a value of its own
when its bit is in none of the three masks unknown, pending and stale. What a write does to each mask is said once, and a
field the write changes is then settled or not by which of the masks the events after it have emptied. A reset is the same
question of the register that R37 gives. -/

namespace Sys2Proof.Machine

/-! ## When a field is settled (R144, R145) -/

theorem settled_iff {h : Hsctlr} {f : Field} : h.settled f ↔
    h.unknown.getLsbD f.bit = false ∧ h.pending.getLsbD f.bit = false ∧ h.tlbStale.getLsbD f.bit = false := by
  simp [Hsctlr.settled, and_assoc]

theorem not_settled_of_pending {h : Hsctlr} {f : Field} (hp : h.pending.getLsbD f.bit = true) : ¬h.settled f := by
  simp [settled_iff, hp]

theorem not_settled_of_stale {h : Hsctlr} {f : Field} (ht : h.tlbStale.getLsbD f.bit = true) : ¬h.settled f := by
  simp [settled_iff, ht]

/-- The fields that a TLB may hold an old value of (R73). -/
theorem getLsbD_tlbMask_iff (f : Field) :
    tlbMask.getLsbD f.bit = true ↔ f = .wxn ∨ f = .lsmaoe ∨ f = .ntlsmd := by
  cases f <;> decide

/-! ## What a write leaves in the bit of a control (R36, R144) -/

section
variable {c : Config} {n : Nat} (hc : (ctrlMask c).getLsbD n = true) (h : Hsctlr) (v : Word)
include hc

theorem getLsbD_changedBy :
    (h.changedBy c v).getLsbD n = ((h.stored.getLsbD n ^^ v.getLsbD n) || h.unknown.getLsbD n) := by
  simp [Hsctlr.changedBy, hc]

theorem write_unknown_of_ctrl : (h.write c v).unknown.getLsbD n = false := by
  simp [writeMask_of_ctrl hc]

end

section
variable {c : Config} {h : Hsctlr} {v : Word} {f : Field} (hc : (ctrlMask c).getLsbD f.bit = true)
include hc

/-- Where no write is pending and no TLB copy stale the last write's value is in force. -/
theorem write_synchronise_invalidateTlb_settled : (h.write c v).synchronise.invalidateTlb.settled f :=
  settled_iff.2 ⟨write_unknown_of_ctrl hc h v, BitVec.getLsbD_zero, BitVec.getLsbD_zero⟩

/-- No TLB holds a copy of the other ten fields, so a synchronisation settles them without an invalidation (R73). -/
theorem write_synchronise_settled (hs : Within h.tlbStale (ctrlMask c &&& tlbMask))
    (hf : tlbMask.getLsbD f.bit = false) : (h.write c v).synchronise.settled f := by
  have hstale : h.tlbStale.getLsbD f.bit = false := by
    by_contra hn
    have hmask := within_iff.1 hs f.bit (Bool.not_eq_false _ ▸ hn)
    simp [hf] at hmask
  exact settled_iff.2 ⟨write_unknown_of_ctrl hc h v, BitVec.getLsbD_zero, by simp [hstale, hf]⟩

/-- A write of the value that a settled field has leaves it settled. -/
theorem write_settled_of_eq (hs : h.settled f) (hv : v.getLsbD f.bit = h.stored.getLsbD f.bit) :
    (h.write c v).settled f := by
  obtain ⟨hunknown, hpending, hstale⟩ := settled_iff.1 hs
  have hchanged : (h.changedBy c v).getLsbD f.bit = false := by simp [getLsbD_changedBy hc, hv, hunknown]
  exact settled_iff.2 ⟨write_unknown_of_ctrl hc h v, by simp [hpending, hchanged], by simp [hstale, hchanged]⟩

theorem changedBy_of_ne (hv : v.getLsbD f.bit ≠ h.stored.getLsbD f.bit) :
    (h.changedBy c v).getLsbD f.bit = true := by
  simp [getLsbD_changedBy hc, hv.symm]

end

/-! ## HSCTLR and the process state after a reset (R37, R141) -/

section
variable {c : Config} (d : Word)

/-- A control that R37 gives a value at every reset has it at once: nothing is pending or stale. -/
theorem eff_reset_of_known {f : Field} (hk : bitKind c f.bit = .control)
    (hu : (0x000801A2#32 ||| 0x0000101D#32 : Word).getLsbD f.bit = false) :
    (Hsctlr.reset c).eff c d f =
      (c.resetDSSBS && (0x80000000#32).getLsbD f.bit || c.resetTE && (0x40000000#32).getLsbD f.bit
        || c.resetEE && (0x02000000#32).getLsbD f.bit || c.highestEL == .el2 && (0x00000018#32).getLsbD f.bit) := by
  have hc : (ctrlMask c).getLsbD f.bit = true := by simp [getLsbD_ctrlMask f.bit_lt, hk]
  have hunknown : (Hsctlr.reset c).unknown.getLsbD f.bit = false := by
    rw [BitVec.getLsbD_or, Bool.or_eq_false_iff] at hu
    obtain ⟨halways, hnotEL2⟩ := hu
    rw [reset_unknown_of_ctrl hc, halways, hnotEL2, Bool.and_false, Bool.or_false]
  rw [eff_control hc (settled_iff.2 ⟨hunknown, BitVec.getLsbD_zero, BitVec.getLsbD_zero⟩), reset_stored_of_ctrl hc]

theorem eff_reset_te : (Hsctlr.reset c).eff c d .te = c.resetTE := by
  rw [eff_reset_of_known d rfl rfl]
  simp [Field.bit]

theorem eff_reset_ee : (Hsctlr.reset c).eff c d .ee = if c.featMixedEnd then c.resetEE else c.featBigEnd := by
  cases hm : c.featMixedEnd with
  | true =>
    rw [eff_reset_of_known (f := .ee) d (if_pos hm) rfl]
    simp [Field.bit]
  | false =>
    have hk : bitKind c Field.ee.bit = if c.featBigEnd then .res1 else .res0 := by simp [Field.bit, bitKind, hm]
    rw [eff_of_not_control (by rw [hk]; split <;> decide), hk]
    cases c.featBigEnd <;> rfl

theorem eff_reset_dssbs (hs : c.featSSBS = true) : (Hsctlr.reset c).eff c d .dssbs = c.resetDSSBS := by
  rw [eff_reset_of_known (f := .dssbs) d (if_pos hs) rfl]
  simp [Field.bit]

end

/-- D5: a Cold reset does what a Warm reset does. -/
theorem runEvent_reset {e : Event} (he : e = .warmReset ∨ e = .coldReset) (s : State) :
    s.runEvent e = .next s.warmReset := by
  rcases he with rfl | rfl <;> rfl

section
variable {s : State}

theorem warmReset_el (hel : s.cfg.highestEL = .el2) : s.warmReset.el = .el2 := if_pos hel

variable (hh : resetsIntoHyp s.cfg = true)
include hh

theorem warmReset_iset : s.warmReset.iset = if s.cfg.resetTE then .t32 else .a32 := by
  simp [State.warmReset, hh, eff_reset_te]

theorem warmReset_pstateE :
    s.warmReset.pstateE = if s.cfg.featMixedEnd then s.cfg.resetEE else s.cfg.featBigEnd := by
  simp [State.warmReset, hh, eff_reset_ee]

theorem warmReset_ssbs (hs : s.cfg.featSSBS = true) : s.warmReset.ssbs = s.cfg.resetDSSBS := by
  simp [State.warmReset, hh, hs, eff_reset_dssbs]

theorem warmReset_inItBlock : s.warmReset.inItBlock = false := by
  simp [State.inItBlock, State.warmReset, hh]

theorem warmReset_el2UsingAArch32 : s.warmReset.el2UsingAArch32 = true := by
  simp [State.warmReset, hh]

end

end Sys2Proof.Machine

open Sys2Proof.Machine

/-- Settles O13: the synchronisation settles a field that no TLB holds. -/
theorem synchronisedFieldIsTheWrittenOne : Obligations.SynchronisedFieldIsTheWrittenOne := by
  intro c h v d f hs hc hwxn hlsmaoe hntlsmd
  have hf : tlbMask.getLsbD f.bit = false :=
    Bool.eq_false_iff.2 fun ht => ((getLsbD_tlbMask_iff f).1 ht).elim hwxn (·.elim hlsmaoe hntlsmd)
  exact (eff_control hc (write_synchronise_settled hc hs hf)).trans (writeMasked_control hc h.stored v)

/-- Settles O15: a changed field is pending from the write on, and stale too where a TLB may hold it; each event empties
one of the two masks only. -/
theorem changedFieldIsADraw : Obligations.ChangedFieldIsADraw := by
  refine fun c h v f hc hs => ⟨fun hne b => ?changed, fun heq d => ?unchanged⟩
  case changed =>
    have hch : (h.changedBy c v).getLsbD f.bit = true := changedBy_of_ne hc hne
    refine ⟨exists_eff_of_not_settled hc (not_settled_of_pending ?_) b,
      exists_eff_of_not_settled hc (not_settled_of_pending ?_) b, fun hf =>
      exists_eff_of_not_settled hc (not_settled_of_stale ?_) b⟩
    · simp [hch]
    · simp [hch]
    · simp [hch, (getLsbD_tlbMask_iff f).2 hf]
  case unchanged =>
    rw [eff_control hc (write_settled_of_eq hc hs heq), write_stored, writeMasked_control hc, heq]

/-- Settles O48: both events are one operation, and what it leaves in Hyp mode is read off HSCTLR at its reset value. -/
theorem resetEventResetsHsctlr : Obligations.ResetEventResetsHsctlr := by
  refine fun s e he => ⟨s.warmReset, runEvent_reset he s, rfl, rfl, fun hel hf => ?_⟩
  have hh : resetsIntoHyp s.cfg = true := by simp [resetsIntoHyp, hel, hf]
  exact ⟨warmReset_el hel, warmReset_iset hh, warmReset_pstateE hh, warmReset_ssbs hh,
    accessCheck_el2 hf (warmReset_el hel), warmReset_inItBlock hh, rfl, warmReset_el2UsingAArch32 hh⟩

/-- Settles O14: nothing is left pending or stale, so every control is settled. -/
theorem invalidatedFieldIsTheWrittenOne : Obligations.InvalidatedFieldIsTheWrittenOne := fun _ h v _ _ hc =>
  (eff_control hc (write_synchronise_invalidateTlb_settled hc)).trans (writeMasked_control hc h.stored v)

/-- Settles O49: each event is the operation on HSCTLR that empties one mask. -/
theorem synchronisationAndInvalidationEvents : Obligations.SynchronisationAndInvalidationEvents :=
  fun _ => ⟨rfl, rfl⟩
end

section
/-! PROOFS of the family other: the bytes that the model's own data access moves (log 25). A word-aligned access of Normal
memory meets no check, so it is its move of data. That a load gets back what a store put is said in two halves: memory gives
back the bytes written, and joining the bytes of a value in the order they were split in gives the value. -/

namespace Sys2Proof.Machine

/-! ## Bytes written, read back (log 22) -/

theorem read_writeBytes_head (m : Memory) (a : Word) (b : Byte) {bs : List Byte} (h : bs.length < 2 ^ 32) :
    Memory.read (Memory.writeBytes m a (b :: bs)) a.toNat = some b := by
  have hout : ∀ n, n < bs.length → a ≠ a + 1#32 + BitVec.ofNat 32 n := by
    intro n hn
    bv_omega
  rw [Memory.writeBytes, read_writeBytes_other _ _ _ _ hout, read_write_same]

/-- The bytes written fit into the address space, so that none is written over by one of them that wraps. -/
theorem readBytes_writeBytes (m : Memory) (a : Word) {bs : List Byte} (h : bs.length ≤ 2 ^ 32) :
    Memory.readBytes (Memory.writeBytes m a bs) a bs.length = some bs := by
  induction bs generalizing m a with
  | nil => rfl
  | cons b bs ih =>
    have hlt : bs.length < 2 ^ 32 := h
    have hrest : Memory.readBytes (Memory.writeBytes m a (b :: bs)) (a + 1#32) bs.length = some bs :=
      ih (Memory.write m a.toNat b) (a + 1#32) hlt.le
    simp only [List.length_cons, Memory.readBytes, read_writeBytes_head m a b hlt, hrest]

theorem read_of_readBytes {m : Memory} {a : Word} {k : Nat} {bs : List Byte} (h : Memory.readBytes m a k = some bs)
    {n : Nat} (hn : n < k) : Memory.read m (a + BitVec.ofNat 32 n).toNat = bs[n]? := by
  induction k generalizing a bs n with
  | zero => cases hn
  | succ k ih =>
    simp only [Memory.readBytes] at h
    split at h
    · next b rest hb hrest =>
      cases h
      cases n with
      | zero => simpa using hb
      | succ n =>
        have haddr : a + BitVec.ofNat 32 (n + 1) = a + 1#32 + BitVec.ofNat 32 n := by bv_omega
        rw [haddr, ih hrest (Nat.lt_of_succ_lt_succ hn), List.getElem?_cons_succ]
    · cases h

/-! ## A value and its bytes in memory order (D17) -/

@[simp] theorem length_lowBytes (v n : Nat) : (lowBytes v n).length = n := by
  induction n generalizing v with
  | zero => rfl
  | succ n ih => rw [lowBytes, List.length_cons, ih]

@[simp] theorem length_splitBytes (big : Bool) (v n : Nat) : (splitBytes big v n).length = n := by
  cases big <;> simp [splitBytes]

theorem getElem?_lowBytes (v : Nat) {k n : Nat} (h : n < k) :
    (lowBytes v k)[n]? = some (BitVec.ofNat 8 (v >>> (8 * n))) := by
  induction k generalizing v n with
  | zero => cases h
  | succ k ih =>
    cases n with
    | zero => rfl
    | succ n =>
      rw [lowBytes, List.getElem?_cons_succ, ih _ (Nat.lt_of_succ_lt_succ h), Nat.mul_succ, Nat.add_comm,
        Nat.shiftRight_add, Nat.shiftRight_eq_div_pow v]

/-- Byte `n` from the lowest address is byte `n` from the low end of the value, or from the high end when `big`. -/
theorem getElem?_splitBytes (big : Bool) (v : Word) {k n : Nat} (h : n < k) :
    (splitBytes big v.toNat k)[n]? = some (v.extractLsb' (8 * (if big then k - 1 - n else n)) 8) := by
  cases big with
  | false => exact getElem?_lowBytes v.toNat h
  | true =>
    have hrev : (splitBytes true v.toNat k)[n]? = (lowBytes v.toNat k)[k - 1 - n]? := by
      rw [splitBytes, if_pos rfl, List.getElem?_reverse (by simpa using h), length_lowBytes]
    exact hrev.trans (getElem?_lowBytes v.toNat (by omega))

theorem joinBytes_concat (bs : List Byte) (b : Byte) :
    joinBytes true (bs ++ [b]) = joinBytes true bs * 256 + b.toNat := by
  simp [joinBytes]

theorem joinBytes_reverse_lowBytes (v n : Nat) : joinBytes true (lowBytes v n).reverse = v % 256 ^ n := by
  induction n generalizing v with
  | zero => rw [pow_zero, Nat.mod_one]; rfl
  | succ n ih =>
    rw [lowBytes, List.reverse_cons, joinBytes_concat, ih, BitVec.toNat_ofNat, pow_succ' 256 n, Nat.mod_mul,
      Nat.mul_comm, Nat.add_comm]

/-- A value is joined again in the order that it was split in. -/
theorem joinBytes_splitBytes (big : Bool) (v n : Nat) : joinBytes big (splitBytes big v n) = v % 256 ^ n := by
  rw [← joinBytes_reverse_lowBytes]
  cases big <;> rfl

theorem loadedWord_splitBytes (s : State) (v : Word) : s.loadedWord (splitBytes s.pstateE v.toNat 4) = v := by
  rw [State.loadedWord, joinBytes_splitBytes]
  exact BitVec.eq_of_toNat_eq (by simpa using v.isLt)

/-! ## A word access of Normal memory (log 25) -/

section
variable {s : State} {a : Word} (ha : a.toNat % 4 = 0) (hn : (s.stage1 a).memType = .normal)

include ha hn in
theorem accessFault_word_normal (k : Nat) (cls : AccessClass) (op : AccessOp) :
    s.accessFault k ⟨cls, op, .word, a⟩ = none := by
  refine accessFault_eq_none_iff.2 ⟨?_, ?_⟩
  · simp [State.alignmentFails, misaligned, elementSize, ha]
  · simp [State.multipleTraps, isNonGatheringDevice, hn]

include ha hn in
theorem runAccess_word_normal (cls : AccessClass) (op : AccessOp) :
    s.runAccess ⟨cls, op, .word, a⟩ = s.moveData ⟨cls, op, .word, a⟩ := by
  simp [State.runAccess, accessFault_word_normal ha hn, misaligned, elementSize, ha]

include hn

theorem storeBytes_word_normal (t0 : Fin 15) : s.storeBytes a t0 .word = splitBytes s.pstateE s.regs[t0].toNat 4 := by
  simp [State.storeBytes, State.elementBytes, isDevice, hn]

theorem loadBytes_normal (n : Nat) : s.loadBytes a n = Memory.readBytes s.mem a n := by
  simp [State.loadBytes, isDevice, hn]

end

theorem moveData_load {s : State} {t0 : Fin 15} {size : AccessSize} {a : Word} {bs : List Byte}
    (h : s.loadBytes a (elementSize size) = some bs) (cls : AccessClass) :
    s.moveData ⟨cls, .load t0, size, a⟩ = .next { s with regs := s.loadElement t0 bs size } := by
  simp only [State.moveData, h]

theorem moveData_store {cls : AccessClass} (h : ∀ status, cls ≠ .exclusive status) (s : State) (t0 : Fin 15)
    (size : AccessSize) (a : Word) :
    s.moveData ⟨cls, .store t0, size, a⟩ = .next (s.storeAt a (s.storeBytes a t0 size)) := by
  cases cls with
  | exclusive status => exact absurd rfl (h status)
  | plain | ordered | multiple => rfl

theorem storeExclusive_eq (s : State) (status : Fin 15) (a : Word) (bs : List Byte) :
    s.storeExclusive status a bs =
      { s with
        regs := s.regs.set status (s.draw 3)
        mem := if (s.draw 2).getLsbD 0 then Memory.writeBytes s.mem a bs else s.mem } := by
  simp only [State.storeExclusive]
  split <;> rfl

/-- Every store answers a next state. One that is not exclusive writes its bytes and no register; an exclusive one does that
or leaves memory alone, and writes its status register (log 40). -/
theorem moveData_store_cases (s : State) (cls : AccessClass) (t0 : Fin 15) (size : AccessSize) (a : Word) :
    ∃ regs mem, s.moveData ⟨cls, .store t0, size, a⟩ = .next { s with regs := regs, mem := mem } ∧
      (mem = Memory.writeBytes s.mem a (s.storeBytes a t0 size) ∨ ((∃ status, cls = .exclusive status) ∧ mem = s.mem)) ∧
      ∀ r : Fin 15, cls ≠ .exclusive r → regs[r] = s.regs[r] := by
  by_cases h : ∃ status, cls = .exclusive status
  · obtain ⟨status, rfl⟩ := h
    have hregs : ∀ r : Fin 15, AccessClass.exclusive status ≠ .exclusive r →
        (s.regs.set status (s.draw 3))[r] = s.regs[r] := by
      intro r hr
      have hne : (status : Nat) ≠ r := fun e => hr (congrArg _ (Fin.ext e))
      exact Vector.getElem_set_ne status.isLt r.isLt hne
    refine ⟨_, _, congrArg Host.Outcome.next (storeExclusive_eq s status a _), ?_, hregs⟩
    split
    · exact .inl rfl
    · exact .inr ⟨⟨status, rfl⟩, rfl⟩
  · exact ⟨s.regs, _, moveData_store (not_exists.1 h) s t0 size a, .inl rfl, fun _ _ => rfl⟩

theorem sameContext_regs_mem (s : State) (regs : Vector Word 15) (mem : Memory) :
    SameContext s { s with regs := regs, mem := mem } := by
  constructor <;> rfl

end Sys2Proof.Machine

open Sys2Proof Sys2Proof.Machine

/-- Settles O45: byte `n` of what is read back where the register was written is byte `n` of the register in PSTATE.E's
order. -/
theorem storeByteOrderByPstateE : Obligations.StoreByteOrderByPstateE := by
  intro s cls t0 a ha hn
  obtain ⟨regs, mem, hmove, hmem, hregs⟩ := moveData_store_cases s cls t0 .word a
  rw [storeBytes_word_normal hn] at hmem
  refine ⟨_, (runAccess_word_normal ha hn cls (.store t0)).trans hmove, ?bytes, fun b hb => ?otherBytes, hregs,
    rfl, rfl, rfl, ⟨rfl, rfl⟩, sameContext_regs_mem s regs mem⟩
  case bytes =>
    rcases hmem with rfl | ⟨hcls, rfl⟩
    · have hread := readBytes_writeBytes s.mem a (bs := splitBytes s.pstateE s.regs[t0].toNat 4) (by simp)
      rw [length_splitBytes] at hread
      exact .inl fun n h4 => (read_of_readBytes hread h4).trans (getElem?_splitBytes s.pstateE s.regs[t0] h4)
    · exact .inr ⟨hcls, fun _ => rfl⟩
  case otherBytes =>
    rcases hmem with rfl | ⟨-, rfl⟩
    · exact read_writeBytes_other _ _ _ _ (by simpa using hb)
    · rfl

/-- Settles O46: the load reads back the bytes that the register was split into, and joins them in the same order. -/
theorem loadAfterStoreGivesTheValue : Obligations.LoadAfterStoreGivesTheValue := by
  intro s t cls cls' t0 t1 a ha hn hcls hstore
  have hmove := (runAccess_word_normal ha hn cls (.store t0)).trans (moveData_store hcls s t0 .word a)
  rw [storeBytes_word_normal hn] at hmove
  obtain rfl := Host.Outcome.next.inj (hstore.symm.trans hmove)
  generalize hbs : splitBytes s.pstateE s.regs[t0].toNat 4 = bs
  have hlen : bs.length = 4 := by rw [← hbs, length_splitBytes]
  have hn' : ((s.storeAt a bs).stage1 a).memType = .normal := hn
  have hload : (s.storeAt a bs).loadBytes a 4 = some bs := by
    rw [loadBytes_normal hn', ← hlen]
    exact readBytes_writeBytes s.mem a (by simp [hlen])
  refine ⟨_, (runAccess_word_normal ha hn' cls' (.load t1)).trans (moveData_load hload cls'), ?value, fun r hr => ?others,
    rfl, rfl, rfl, ⟨rfl, rfl⟩, sameContext_regs_mem _ _ _, fun _ => rfl⟩
  case value =>
    have hword : (s.storeAt a bs).loadedWord bs = s.regs[t0] := by
      rw [← hbs]
      exact loadedWord_splitBytes s s.regs[t0]
    exact (Vector.getElem_set_self _).trans hword
  case others =>
    have hne : (t1 : Nat) ≠ r := fun e => hr (Fin.ext e.symm)
    exact Vector.getElem_set_ne t1.isLt r.isLt hne
end
